-- ==== Sys2Proof/Word.lean ====
section
/-! DEFINITION. The word types of the GFLE: field elements, instruction and host words, program counter values,
coefficient sequences. -/

namespace Sys2Proof

/-- An element of GF(2^8): one byte (10_state.md R20, R21; 00_scope.md R17). -/
abbrev Element := BitVec 8

/-- A 32-bit word: an instruction (30_encoding.md R90) or the data of a host access (20_memory.md R65). -/
abbrev Word := BitVec 32

/-- A value of the program counter, an index of an IMEM word (10_state.md R26). -/
abbrev PcValue := BitVec 16

/-- A byte offset inside the 16 KiB host window (10_state.md R42, R43). -/
abbrev HostOffset := BitVec 14

/-- A sequence of elements; read as a polynomial, index `k` holds the coefficient of `x^k` (00_scope.md R11). -/
abbrev Poly := List Element

end Sys2Proof
end

