-- ==== Sys2Proof/Config.lean ====
section
/-! DEFINITION. What one implementation fixes: the parameters of 00_scope.md R8, the ID constant of 10_state.md R34,
and the one free value of the model (the undriven lanes of a narrow host write, 20_memory.md R65). -/

namespace Sys2Proof

/-- The implementation parameters of 00_scope.md R8 that are not fixed by it. They are held as plain data so that every
claim is about every legal implementation (log 3). -/
structure Params where
  /-- `VLMAX`, the greatest length of a vector register. -/
  vlmax : Nat
  /-- `IMEM_WORDS`, the number of instruction words. -/
  imemWords : Nat
  /-- `DMEM_BYTES`, the number of data bytes. -/
  dmemBytes : Nat
  /-- `HOST_BASE`, the platform address of the host window. -/
  hostBase : Nat
deriving DecidableEq, Repr

/-- The ranges of 00_scope.md R8: VLMAX 1 to 255, IMEM_WORDS 1 to 2048, DMEM_BYTES 4 to 4096 and a multiple of 4,
HOST_BASE 16 KiB aligned. -/
def Params.legal (p : Params) : Bool :=
  decide (1 ≤ p.vlmax ∧ p.vlmax ≤ 255) && decide (1 ≤ p.imemWords ∧ p.imemWords ≤ 2048) &&
  decide (4 ≤ p.dmemBytes ∧ p.dmemBytes ≤ 4096 ∧ p.dmemBytes % 4 = 0) && decide (p.hostBase % 16384 = 0)

/-- The defaults of 00_scope.md R8. HOST_BASE has no default there; 0 is DESIGN CHOICE (unsafe, log 3). -/
def Params.default : Params := { vlmax := 32, imemWords := 1024, dmemBytes := 4096, hostBase := 0 }

/-- The constant the ID register reads, magic, major and minor version (10_state.md R34). -/
def Config.idWord : Word := 0x47460100#32

/-- FREE VALUE (20_memory.md R65, 93_implementation_defined.md U5, log 8): what a lane of a host write holds that the host
did not drive. It has no body: no proof can see it. The argument is the number of the draw (`State.freeDraws`). -/
opaque Config.undrivenLane : Nat → Element

end Sys2Proof
end

