-- ==== Sys2Proof/Syntax.lean ====
section
/-! DEFINITION. The instructions of GFLE-1, one constructor per row of spec/opcode_table.json (30_encoding.md R94). -/

namespace Sys2Proof

/-- An operand of kind E names one of E0 to E15 (30_encoding.md R92). -/
abbrev EReg := Fin 16

/-- An operand of kind V names one of V0 to V7; a field of 8 to 15 names none and makes the word illegal
(30_encoding.md R92). -/
abbrev VReg := Fin 8

/-- The instructions. Register operands are in the table's order `d` (or `r`), `a`, `b`. `addr` is `addr12`, `len` is
`len8` (VLD) or the length in `imm8` (VCLR), `off` is `off16` read as a signed number (30_encoding.md R93); their ranges
are `Instr.wellFormed`. -/
inductive Instr where
  /-- 40_field.md R126. -/
  | gadd (d a b : EReg)
  /-- 40_field.md R127. -/
  | gneg (d a : EReg)
  /-- 40_field.md R128. -/
  | gmul (d a b : EReg)
  /-- 40_field.md R129. -/
  | ginv (d a : EReg)
  /-- 41_polynomial.md R147. -/
  | peval (d : EReg) (a : VReg) (b : EReg)
  /-- 41_polynomial.md R148. -/
  | padd (d a b : VReg)
  /-- 41_polynomial.md R149. -/
  | pmul (d a b : VReg)
  /-- 41_polynomial.md R150. -/
  | pscale (d a : VReg) (b : EReg)
  /-- 42_lagrange.md R163. -/
  | lbasis (d a : VReg) (b : EReg)
  /-- 42_lagrange.md R164. -/
  | linterp (d a b : VReg)
  /-- 43_data_movement.md R181. -/
  | eli (d : EReg) (imm : Element)
  /-- 43_data_movement.md R182. -/
  | emov (d a : EReg)
  /-- 43_data_movement.md R183. -/
  | einc (d a : EReg)
  /-- 43_data_movement.md R184. -/
  | eld (r : EReg) (addr : Nat)
  /-- 43_data_movement.md R185. -/
  | est (r : EReg) (addr : Nat)
  /-- 43_data_movement.md R186. -/
  | vld (r : VReg) (len addr : Nat)
  /-- 43_data_movement.md R187. -/
  | vst (r : VReg) (addr : Nat)
  /-- 43_data_movement.md R188. -/
  | vmov (d a : VReg)
  /-- 43_data_movement.md R189. -/
  | vlen (d : EReg) (a : VReg)
  /-- 43_data_movement.md R190. -/
  | vget (d : EReg) (a : VReg) (b : EReg)
  /-- 43_data_movement.md R191. -/
  | vset (d : VReg) (a b : EReg)
  /-- 43_data_movement.md R192. -/
  | vclr (d : VReg) (len : Nat)
  /-- 44_control.md R220. -/
  | halt
  /-- 44_control.md R221. -/
  | nop
  /-- 44_control.md R222. -/
  | jmp (off : Int)
  /-- 44_control.md R223. -/
  | beq (a b : EReg) (off : Int)
  /-- 44_control.md R224. -/
  | bne (a b : EReg) (off : Int)
deriving DecidableEq, Repr

/-- The mnemonics, that is the rows of the opcode map (30_encoding.md R94). -/
inductive Mnemonic where
  | gadd | gneg | gmul | ginv | peval | padd | pmul | pscale | lbasis | linterp
  | eli | emov | einc | eld | est | vld | vst | vmov | vlen | vget | vset | vclr
  | halt | nop | jmp | beq | bne
deriving DecidableEq, Repr

/-- Every mnemonic, in the order of 30_encoding.md R94. -/
def Mnemonic.all : List Mnemonic :=
  [.gadd, .gneg, .gmul, .ginv, .peval, .padd, .pmul, .pscale, .lbasis, .linterp,
   .eli, .emov, .einc, .eld, .est, .vld, .vst, .vmov, .vlen, .vget, .vset, .vclr,
   .halt, .nop, .jmp, .beq, .bne]

/-- The row of the opcode map an instruction belongs to. -/
def Instr.mnemonic : Instr → Mnemonic
  | .gadd _ _ _ => .gadd
  | .gneg _ _ => .gneg
  | .gmul _ _ _ => .gmul
  | .ginv _ _ => .ginv
  | .peval _ _ _ => .peval
  | .padd _ _ _ => .padd
  | .pmul _ _ _ => .pmul
  | .pscale _ _ _ => .pscale
  | .lbasis _ _ _ => .lbasis
  | .linterp _ _ _ => .linterp
  | .eli _ _ => .eli
  | .emov _ _ => .emov
  | .einc _ _ => .einc
  | .eld _ _ => .eld
  | .est _ _ => .est
  | .vld _ _ _ => .vld
  | .vst _ _ => .vst
  | .vmov _ _ => .vmov
  | .vlen _ _ => .vlen
  | .vget _ _ _ => .vget
  | .vset _ _ _ => .vset
  | .vclr _ _ => .vclr
  | .halt => .halt
  | .nop => .nop
  | .jmp _ => .jmp
  | .beq _ _ _ => .beq
  | .bne _ _ _ => .bne

end Sys2Proof
end

