-- ==== Sys2Proof/WellFormed.lean ====
section
/-! DEFINITION. Which instructions have an encoding: every immediate in the range of its field (30_encoding.md R93, R101).
Register operands are in range by their types. -/

namespace Sys2Proof

/-- `addr12` holds 0 to 4095 (30_encoding.md R93). -/
def addrFits (addr : Nat) : Bool := decide (addr ≤ 4095)

/-- `len8` and `imm8` hold a count of 0 to 255 (30_encoding.md R93). -/
def countFits (len : Nat) : Bool := decide (len ≤ 255)

/-- `off16` holds a signed offset of -32768 to 32767 (30_encoding.md R93). -/
def offsetFits (off : Int) : Bool := decide (-32768 ≤ off ∧ off ≤ 32767)

/-- Every immediate operand of the instruction is in the range its field can hold. -/
def Instr.wellFormed : Instr → Bool
  | .gadd _ _ _ | .gneg _ _ | .gmul _ _ _ | .ginv _ _ => true
  | .peval _ _ _ | .padd _ _ _ | .pmul _ _ _ | .pscale _ _ _ => true
  | .lbasis _ _ _ | .linterp _ _ _ => true
  | .eli _ _ | .emov _ _ | .einc _ _ => true
  | .eld _ addr | .est _ addr | .vst _ addr => addrFits addr
  | .vld _ len addr => countFits len && addrFits addr
  | .vmov _ _ | .vlen _ _ | .vget _ _ _ | .vset _ _ _ => true
  | .vclr _ len => countFits len
  | .halt | .nop => true
  | .jmp off | .beq _ _ off | .bne _ _ off => offsetFits off

end Sys2Proof
end

