-- ==== Sys2Proof/Decode.lean ====
section
/-! DEFINITION. Instruction words: the opcode map (30_encoding.md R94), the decoder (R95, R96) and the encoder (R91). -/

namespace Sys2Proof

/-! ## The opcode map -/

/-- The `op` value of each mnemonic (30_encoding.md R94). -/
def Mnemonic.op : Mnemonic → BitVec 8
  | .gadd => 0x10#8
  | .gneg => 0x11#8
  | .gmul => 0x12#8
  | .ginv => 0x13#8
  | .peval => 0x20#8
  | .padd => 0x21#8
  | .pmul => 0x22#8
  | .pscale => 0x23#8
  | .lbasis => 0x30#8
  | .linterp => 0x31#8
  | .eli => 0x40#8
  | .emov => 0x41#8
  | .einc => 0x42#8
  | .eld => 0x43#8
  | .est => 0x44#8
  | .vld => 0x48#8
  | .vst => 0x49#8
  | .vmov => 0x4A#8
  | .vlen => 0x4B#8
  | .vget => 0x4C#8
  | .vset => 0x4D#8
  | .vclr => 0x4E#8
  | .halt => 0x01#8
  | .nop => 0x02#8
  | .jmp => 0x03#8
  | .beq => 0x04#8
  | .bne => 0x05#8

/-- The `match` column of 30_encoding.md R94. -/
def Mnemonic.pattern : Mnemonic → Word
  | .gadd => 0x10000000#32
  | .gneg => 0x11000000#32
  | .gmul => 0x12000000#32
  | .ginv => 0x13000000#32
  | .peval => 0x20000000#32
  | .padd => 0x21000000#32
  | .pmul => 0x22000000#32
  | .pscale => 0x23000000#32
  | .lbasis => 0x30000000#32
  | .linterp => 0x31000000#32
  | .eli => 0x40000000#32
  | .emov => 0x41000000#32
  | .einc => 0x42000000#32
  | .eld => 0x43000000#32
  | .est => 0x44000000#32
  | .vld => 0x48000000#32
  | .vst => 0x49000000#32
  | .vmov => 0x4A000000#32
  | .vlen => 0x4B000000#32
  | .vget => 0x4C000000#32
  | .vset => 0x4D000000#32
  | .vclr => 0x4E000000#32
  | .halt => 0x01000000#32
  | .nop => 0x02000000#32
  | .jmp => 0x03000000#32
  | .beq => 0x04000000#32
  | .bne => 0x05000000#32

/-- The `mask` column of 30_encoding.md R94. -/
def Mnemonic.mask : Mnemonic → Word
  | .gadd => 0xFF000FFF#32
  | .gneg => 0xFF00FFFF#32
  | .gmul => 0xFF000FFF#32
  | .ginv => 0xFF00FFFF#32
  | .peval => 0xFF080FFF#32
  | .padd => 0xFF888FFF#32
  | .pmul => 0xFF888FFF#32
  | .pscale => 0xFF880FFF#32
  | .lbasis => 0xFF880FFF#32
  | .linterp => 0xFF888FFF#32
  | .eli => 0xFF0FFF00#32
  | .emov => 0xFF00FFFF#32
  | .einc => 0xFF00FFFF#32
  | .eld => 0xFF0FF000#32
  | .est => 0xFF0FF000#32
  | .vld => 0xFF800000#32
  | .vst => 0xFF8FF000#32
  | .vmov => 0xFF88FFFF#32
  | .vlen => 0xFF08FFFF#32
  | .vget => 0xFF080FFF#32
  | .vset => 0xFF800FFF#32
  | .vclr => 0xFF8FFF00#32
  | .halt => 0xFFFFFFFF#32
  | .nop => 0xFFFFFFFF#32
  | .jmp => 0xFFFF0000#32
  | .beq => 0xFF000000#32
  | .bne => 0xFF000000#32

/-- A word has the exact pattern of a row (30_encoding.md R94). -/
def Mnemonic.matches (m : Mnemonic) (w : Word) : Bool := (w &&& m.mask) == m.pattern

/-- The row whose `op` value a byte is, if any (30_encoding.md R94, R96). -/
def Mnemonic.ofOp? (b : BitVec 8) : Option Mnemonic := Mnemonic.all.find? (fun m => m.op == b)

/-! ## The fields of a word (30_encoding.md R91) -/

/-- Bits 31:24, `op`. -/
def opField (w : Word) : BitVec 8 := w.extractLsb' 24 8
/-- Bits 23:20: `d` of formats R and I, `r` of format M, `a` of format B. -/
def field20 (w : Word) : BitVec 4 := w.extractLsb' 20 4
/-- Bits 19:16: `a` of format R, `b` of format B. -/
def field16 (w : Word) : BitVec 4 := w.extractLsb' 16 4
/-- Bits 15:12: `b` of format R. -/
def field12 (w : Word) : BitVec 4 := w.extractLsb' 12 4
/-- Bits 11:0: `Z` of format R, `addr12` of format M. -/
def low12 (w : Word) : BitVec 12 := w.extractLsb' 0 12
/-- Bits 23:0: `Z` of format N. -/
def low24 (w : Word) : BitVec 24 := w.extractLsb' 0 24
/-- Bits 19:8: `Z` of format I. -/
def mid12 (w : Word) : BitVec 12 := w.extractLsb' 8 12
/-- Bits 7:0: `imm8` of format I. -/
def low8 (w : Word) : BitVec 8 := w.extractLsb' 0 8
/-- Bits 19:12: `len8` of format M. -/
def len8Field (w : Word) : BitVec 8 := w.extractLsb' 12 8
/-- Bits 15:0: `off16` of format B. -/
def low16 (w : Word) : BitVec 16 := w.extractLsb' 0 16
/-- Bits 23:16: the `Z` fields `a` and `b` of JMP. -/
def mid8 (w : Word) : BitVec 8 := w.extractLsb' 16 8

/-- The element register a kind E field names: all 16 values are legal (30_encoding.md R92). -/
def eRegOf (f : BitVec 4) : EReg := f.toFin

/-- The vector register a kind V field names, if it is 0 to 7 (30_encoding.md R92). -/
def vRegOf? (f : BitVec 4) : Option VReg := if h : f.toNat < 8 then some ⟨f.toNat, h⟩ else none

/-! ## The decoder -/

/-- Why a word is illegal: the three cases of 30_encoding.md R96. The engine does not report which (log 12). -/
inductive Illegal where
  /-- R96 (1): `op` is none of the 27 opcodes. -/
  | reservedOpcode
  /-- R96 (2): a `Z` field is not zero. -/
  | reservedBitsNonzero
  /-- R96 (3): a kind V field holds 8 to 15. -/
  | noSuchVectorRegister
deriving DecidableEq, Repr

/-- What the decoder answers: an instruction, or the reason the word is illegal. -/
abbrev Decoded := Except Illegal Instr

/-- Go on when a reserved-zero field is zero (30_encoding.md R91, R96). -/
def whenZero {n : Nat} (z : BitVec n) (k : Decoded) : Decoded :=
  if z = 0#n then k else .error .reservedBitsNonzero

/-- Go on with the vector register a kind V field names (30_encoding.md R92, R96). -/
def withV (f : BitVec 4) (k : VReg → Decoded) : Decoded :=
  match vRegOf? f with
  | some r => k r
  | none => .error .noSuchVectorRegister

/-- The fields of a word cut and checked as its row says (30_encoding.md R91, R92, R94). -/
def decodeAs (m : Mnemonic) (w : Word) : Decoded :=
  let ed := eRegOf (field20 w)
  let ea := eRegOf (field16 w)
  let eb := eRegOf (field12 w)
  match m with
  | .gadd => whenZero (low12 w) (.ok (.gadd ed ea eb))
  | .gneg => whenZero (low16 w) (.ok (.gneg ed ea))
  | .gmul => whenZero (low12 w) (.ok (.gmul ed ea eb))
  | .ginv => whenZero (low16 w) (.ok (.ginv ed ea))
  | .peval => whenZero (low12 w) (withV (field16 w) fun a => .ok (.peval ed a eb))
  | .padd =>
    whenZero (low12 w) (withV (field20 w) fun d => withV (field16 w) fun a => withV (field12 w) fun b => .ok (.padd d a b))
  | .pmul =>
    whenZero (low12 w) (withV (field20 w) fun d => withV (field16 w) fun a => withV (field12 w) fun b => .ok (.pmul d a b))
  | .pscale => whenZero (low12 w) (withV (field20 w) fun d => withV (field16 w) fun a => .ok (.pscale d a eb))
  | .lbasis => whenZero (low12 w) (withV (field20 w) fun d => withV (field16 w) fun a => .ok (.lbasis d a eb))
  | .linterp =>
    whenZero (low12 w) (withV (field20 w) fun d => withV (field16 w) fun a => withV (field12 w) fun b => .ok (.linterp d a b))
  | .eli => whenZero (mid12 w) (.ok (.eli ed (low8 w)))
  | .emov => whenZero (low16 w) (.ok (.emov ed ea))
  | .einc => whenZero (low16 w) (.ok (.einc ed ea))
  | .eld => whenZero (len8Field w) (.ok (.eld ed (low12 w).toNat))
  | .est => whenZero (len8Field w) (.ok (.est ed (low12 w).toNat))
  | .vld => withV (field20 w) fun r => .ok (.vld r (len8Field w).toNat (low12 w).toNat)
  | .vst => whenZero (len8Field w) (withV (field20 w) fun r => .ok (.vst r (low12 w).toNat))
  | .vmov => whenZero (low16 w) (withV (field20 w) fun d => withV (field16 w) fun a => .ok (.vmov d a))
  | .vlen => whenZero (low16 w) (withV (field16 w) fun a => .ok (.vlen ed a))
  | .vget => whenZero (low12 w) (withV (field16 w) fun a => .ok (.vget ed a eb))
  | .vset => whenZero (low12 w) (withV (field20 w) fun d => .ok (.vset d ea eb))
  | .vclr => whenZero (mid12 w) (withV (field20 w) fun d => .ok (.vclr d (low8 w).toNat))
  | .halt => whenZero (low24 w) (.ok .halt)
  | .nop => whenZero (low24 w) (.ok .nop)
  | .jmp => whenZero (mid8 w) (.ok (.jmp (low16 w).toInt))
  | .beq => .ok (.beq ed ea (low16 w).toInt)
  | .bne => .ok (.bne ed ea (low16 w).toInt)

/-- `Decode(w)` (30_encoding.md R95): total on all words; the word is illegal exactly when this is an error (R96). -/
def decode (w : Word) : Decoded :=
  match Mnemonic.ofOp? (opField w) with
  | some m => decodeAs m w
  | none => .error .reservedOpcode

/-- The instruction the decoder reads from the low `nbits` bits of `w`, numbered as the opcode table numbers them. An
instruction is one 32-bit IMEM word, whose bit 0 is the table's bit 0 (20_memory.md R61). -/
def decodeTableWord (nbits w : Nat) : Option Instr := (decode (BitVec.ofNat 32 (w % 2 ^ nbits))).toOption

/-! ## The encoder -/

/-- A kind E field (30_encoding.md R92). -/
def eField (r : EReg) : BitVec 4 := BitVec.ofNat 4 r.val
/-- A kind V field (30_encoding.md R92). -/
def vField (r : VReg) : BitVec 4 := BitVec.ofNat 4 r.val

/-- Format N (30_encoding.md R91). -/
def formatN (m : Mnemonic) : Word := m.op ++ 0#24
/-- Format R (30_encoding.md R91); `b` is zero where the table makes it a `Z` field. -/
def formatR (m : Mnemonic) (d a b : BitVec 4) : Word := m.op ++ d ++ a ++ b ++ 0#12
/-- Format I (30_encoding.md R91). -/
def formatI (m : Mnemonic) (d : BitVec 4) (imm : BitVec 8) : Word := m.op ++ d ++ 0#12 ++ imm
/-- Format M (30_encoding.md R91); `len` is zero where the table makes it a `Z` field. -/
def formatM (m : Mnemonic) (r : BitVec 4) (len : BitVec 8) (addr : BitVec 12) : Word := m.op ++ r ++ len ++ addr
/-- Format B (30_encoding.md R91); `a` and `b` are zero for JMP. -/
def formatB (m : Mnemonic) (a b : BitVec 4) (off : BitVec 16) : Word := m.op ++ a ++ b ++ off

/-- The word of an instruction; exact for a well-formed one (30_encoding.md R91, R93, R94). -/
def encode : Instr → Word
  | .gadd d a b => formatR .gadd (eField d) (eField a) (eField b)
  | .gneg d a => formatR .gneg (eField d) (eField a) 0#4
  | .gmul d a b => formatR .gmul (eField d) (eField a) (eField b)
  | .ginv d a => formatR .ginv (eField d) (eField a) 0#4
  | .peval d a b => formatR .peval (eField d) (vField a) (eField b)
  | .padd d a b => formatR .padd (vField d) (vField a) (vField b)
  | .pmul d a b => formatR .pmul (vField d) (vField a) (vField b)
  | .pscale d a b => formatR .pscale (vField d) (vField a) (eField b)
  | .lbasis d a b => formatR .lbasis (vField d) (vField a) (eField b)
  | .linterp d a b => formatR .linterp (vField d) (vField a) (vField b)
  | .eli d imm => formatI .eli (eField d) imm
  | .emov d a => formatR .emov (eField d) (eField a) 0#4
  | .einc d a => formatR .einc (eField d) (eField a) 0#4
  | .eld r addr => formatM .eld (eField r) 0#8 (BitVec.ofNat 12 addr)
  | .est r addr => formatM .est (eField r) 0#8 (BitVec.ofNat 12 addr)
  | .vld r len addr => formatM .vld (vField r) (BitVec.ofNat 8 len) (BitVec.ofNat 12 addr)
  | .vst r addr => formatM .vst (vField r) 0#8 (BitVec.ofNat 12 addr)
  | .vmov d a => formatR .vmov (vField d) (vField a) 0#4
  | .vlen d a => formatR .vlen (eField d) (vField a) 0#4
  | .vget d a b => formatR .vget (eField d) (vField a) (eField b)
  | .vset d a b => formatR .vset (vField d) (eField a) (eField b)
  | .vclr d len => formatI .vclr (vField d) (BitVec.ofNat 8 len)
  | .halt => formatN .halt
  | .nop => formatN .nop
  | .jmp off => formatB .jmp 0#4 0#4 (BitVec.ofInt 16 off)
  | .beq a b off => formatB .beq (eField a) (eField b) (BitVec.ofInt 16 off)
  | .bne a b off => formatB .bne (eField a) (eField b) (BitVec.ofInt 16 off)

end Sys2Proof
end

