-- ==== Sys2Proof/Machine/State.lean ====
section
/-! DEFINITION. The state of the GFLE as plain data: everything 10_state.md R50 lists, the parameters of 00_scope.md R8,
the `rst` port, and the model's own fields for the scheduler, the host bus and the free draws. -/

namespace Sys2Proof.Machine

/-- `ENG_STATE` (10_state.md R27). -/
inductive EngState where
  | idle | running | done | fault
deriving DecidableEq, Repr

/-- The cause codes of 60_exceptions.md R240 by name; the reserved codes 0x0A to 0xFF are never written, so they have no
name here. -/
inductive Cause where
  | none | illegalInstruction | fetchRange | dmemRange | indexRange | lengthMismatch | capacity | zeroInverse
  | duplicateX | aborted
deriving DecidableEq, Repr

/-- One atomic event of the interleaving of 70_reset_and_hazards.md R290: an engine cycle, a host access at an offset of
the host window (20_memory.md R65), or a change of the `rst` input (70_reset_and_hazards.md R280). -/
inductive Event where
  /-- The scheduler lets the engine move. -/
  | engineCycle
  /-- A 32-bit host read. -/
  | hostRead (off : HostOffset)
  /-- A 32-bit host write of a whole word. -/
  | hostWrite (off : HostOffset) (data : Word)
  /-- A host write that drives only the byte lanes whose bit of `lanes` is 1 (20_memory.md R65). -/
  | hostWriteNarrow (off : HostOffset) (lanes : BitVec 4) (data : Word)
  /-- `rst` becomes asserted. -/
  | assertReset
  /-- `rst` becomes released. -/
  | releaseReset
deriving DecidableEq, Repr

/-- The whole machine. -/
structure State where
  /-- The implementation parameters (00_scope.md R8); no event changes them (10_state.md R39). -/
  params : Params
  /-- `E0` to `E15` (10_state.md R20). -/
  e : Vector Element 16
  /-- `V0` to `V7`, each the sequence of its elements (10_state.md R22). -/
  v : Vector Poly 8
  /-- The program counter (10_state.md R26). -/
  pc : PcValue
  /-- `ENG_STATE` (10_state.md R27). -/
  engState : EngState
  /-- `CAUSE` (10_state.md R28). -/
  cause : Cause
  /-- `FAULT_PC` (10_state.md R29). -/
  faultPc : PcValue
  /-- `FAULT_INSTR` (10_state.md R29). -/
  faultInstr : Word
  /-- `IE_DONE` (10_state.md R30). -/
  ieDone : Bool
  /-- `IE_FAULT` (10_state.md R30). -/
  ieFault : Bool
  /-- `ACCERR` (10_state.md R31). -/
  accErr : Bool
  /-- `abort_pending` (10_state.md R32). -/
  abortPending : Bool
  /-- IMEM, word indexed (10_state.md R40); see `Memory.read` for an unlisted word. -/
  imem : List (Nat × Word)
  /-- DMEM, byte addressed (10_state.md R41); see `Memory.read` for an unlisted byte. -/
  dmem : List Host.Cell
  /-- The level of the `rst` input (10_state.md R43). -/
  rst : Bool
  /-- The MODEL's own: what moves next, first entry first; when it is empty the engine moves (log 5). -/
  schedule : List Event
  /-- The MODEL's own: the word the last host read returned (log 7). -/
  hostData : Word
  /-- The MODEL's own: the number of the next free draw (log 8). -/
  freeDraws : Nat
deriving DecidableEq, Repr

/-- Why a step of the MODEL can stop. The faults of 60_exceptions.md are no stops of the model: they are the stop action,
a next state. -/
inductive Fault where
  /-- Raised by `step` when the state's parameters lie outside the ranges of 00_scope.md R8: no GFLE has them. SAFE: the
  model stops where there is no machine (log 4). -/
  | parametersOutOfRange
deriving DecidableEq, Repr

/-- Why the model gives an instruction no meaning. -/
inductive Refusal where
  /-- An instruction without a meaning in this model. SAFE. No arm raises it: every instruction has its meaning. -/
  | notModelled (mnemonic : String)
deriving DecidableEq, Repr

/-- The machine at power-up, with the given parameters and the given contents of IMEM and DMEM, which the spec leaves
arbitrary (10_state.md R50, 70_reset_and_hazards.md R280, R281, 93_implementation_defined.md U1). -/
def State.powerUp (p : Params) (imem : List (Nat × Word)) (dmem : List Host.Cell) : State where
  params := p
  e := Vector.replicate 16 0x00#8
  v := Vector.replicate 8 []
  pc := 0x0000#16
  engState := .idle
  cause := .none
  faultPc := 0x0000#16
  faultInstr := 0x00000000#32
  ieDone := false
  ieFault := false
  accErr := false
  abortPending := false
  imem := imem
  dmem := dmem
  rst := false
  schedule := []
  hostData := 0x00000000#32
  freeDraws := 0

/-- The machine right after reset (10_state.md R50) with the default parameters and memories in which nothing is listed
(DESIGN CHOICE, unsafe, log 1: an unlisted word or byte reads 0, where the spec leaves it arbitrary). -/
def State.reset : State := State.powerUp Params.default [] []

end Sys2Proof.Machine
end

