-- ==== Sys2Proof/Machine/Memory.lean ====
section
/-! DEFINITION. The two memories as sparse lists in one canonical form: addresses strictly rising, no entry equal to what
an unlisted address reads as. IMEM holds 32-bit words (10_state.md R40, log 2), DMEM bytes (10_state.md R41). -/

namespace Sys2Proof.Machine

/-- What an unlisted address reads as: 0. DESIGN CHOICE, unsafe (log 1): the spec leaves a cell that nothing has written
since power-up arbitrary (93_implementation_defined.md U1); claims quantify over all listed contents. -/
def Memory.unlisted (n : Nat) : BitVec n := 0#n

/-- The value at an address. -/
def Memory.read {n : Nat} : List (Nat × BitVec n) → Nat → BitVec n
  | [], _ => Memory.unlisted n
  | (k, x) :: m, a => if k = a then x else Memory.read m a

/-- Without any entry for the address. -/
def Memory.erase {n : Nat} (m : List (Nat × BitVec n)) (a : Nat) : List (Nat × BitVec n) := m.filter (fun c => c.1 != a)

/-- With an entry added before the first greater address. -/
def Memory.insert {n : Nat} : List (Nat × BitVec n) → Nat → BitVec n → List (Nat × BitVec n)
  | [], a, x => [(a, x)]
  | c :: m, a, x => if a < c.1 then (a, x) :: c :: m else c :: Memory.insert m a x

/-- Write one cell, keeping the canonical form: the unlisted value is written by removing the entry. -/
def Memory.write {n : Nat} (m : List (Nat × BitVec n)) (a : Nat) (x : BitVec n) : List (Nat × BitVec n) :=
  if x = Memory.unlisted n then Memory.erase m a else Memory.insert (Memory.erase m a) a x

/-- The canonical form. -/
def Memory.wf {n : Nat} : List (Nat × BitVec n) → Bool
  | [] => true
  | c :: m => decide (c.2 ≠ Memory.unlisted n) && m.all (fun d => decide (c.1 < d.1)) && Memory.wf m

/-- Every listed address is below the bound. -/
def Memory.below {n : Nat} (m : List (Nat × BitVec n)) (bound : Nat) : Bool := m.all (fun c => decide (c.1 < bound))

/-- `MemRead(addr, count)` (00_scope.md R10): the cells at `addr`, `addr + 1`, ... in this order. -/
def Memory.readSeq {n : Nat} (m : List (Nat × BitVec n)) (addr count : Nat) : List (BitVec n) :=
  (List.range count).map (fun k => Memory.read m (addr + k))

/-- `MemWrite(addr, len(xs), xs)` (00_scope.md R10): element `k` to cell `addr + k`. -/
def Memory.writeSeq {n : Nat} : List (Nat × BitVec n) → Nat → List (BitVec n) → List (Nat × BitVec n)
  | m, _, [] => m
  | m, addr, x :: xs => Memory.writeSeq (Memory.write m addr x) (addr + 1) xs

end Sys2Proof.Machine
end

