-- ==== Sys2Proof/Machine/Ops.lean ====
section
/-! DEFINITION. The named operations over registers and memories, how an instruction ends, and TAKING A FAULT (the stop
action of 60_exceptions.md R241) beside the ways back from one (START, ACK, and the ABORT request, R250 to R252). -/

namespace Sys2Proof.Machine

/-- What a meaning and a step answer. -/
abbrev Result := Host.Outcome State Fault Refusal

/-! ## Registers -/

/-- `E[i]` (00_scope.md R10). No element register is hardwired (10_state.md R20). -/
def State.readE (s : State) (i : EReg) : Element := s.e[i]

/-- `E[i] <- x` (00_scope.md R10). -/
def State.writeE (s : State) (i : EReg) (x : Element) : State := { s with e := s.e.set i x }

/-- `V[i]` as a whole sequence (00_scope.md R10). -/
def State.readV (s : State) (i : VReg) : Poly := s.v[i]

/-- `V[i] <- xs`: the length and every element at once (10_state.md R24). -/
def State.writeV (s : State) (i : VReg) (xs : Poly) : State := { s with v := s.v.set i xs }

/-- `pc <- p` (10_state.md R26). -/
def State.setPc (s : State) (p : PcValue) : State := { s with pc := p }

/-- `ENG_STATE <- g` (10_state.md R27). -/
def State.setEngState (s : State) (g : EngState) : State := { s with engState := g }

/-- `IE_DONE` and `IE_FAULT` (10_state.md R30). -/
def State.setEnables (s : State) (done fault : Bool) : State := { s with ieDone := done, ieFault := fault }

/-- The level of the `rst` input (10_state.md R43). -/
def State.setRst (s : State) (level : Bool) : State := { s with rst := level }

/-- The model's own schedule (log 5). -/
def State.setSchedule (s : State) (evs : List Event) : State := { s with schedule := evs }

/-- The word the last host read returned (log 7). -/
def State.setHostData (s : State) (data : Word) : State := { s with hostData := data }

/-- The number of the next free draw (log 8). -/
def State.setFreeDraws (s : State) (n : Nat) : State := { s with freeDraws := n }

/-! ## Memories -/

/-- The DMEM byte at an address (10_state.md R41). -/
def State.dmemByte (s : State) (a : Nat) : Element := Memory.read s.dmem a

/-- `MemRead(addr, n)` (00_scope.md R10). -/
def State.dmemRead (s : State) (addr n : Nat) : Poly := Memory.readSeq s.dmem addr n

/-- `MemWrite(addr, len(xs), xs)` (00_scope.md R10). -/
def State.dmemWrite (s : State) (addr : Nat) (xs : Poly) : State := { s with dmem := Memory.writeSeq s.dmem addr xs }

/-- `IMem[k]` (00_scope.md R10). -/
def State.imemWord (s : State) (k : Nat) : Word := Memory.read s.imem k

/-- `IMem[k] <- w`, by the host only (10_state.md R40). -/
def State.imemWrite (s : State) (k : Nat) (w : Word) : State := { s with imem := Memory.write s.imem k w }

/-! ## Taking a fault, and what the host does about one -/

/-- `Stop(c, p, w)` (60_exceptions.md R241): `pc` and everything not named here keep their values. -/
def State.stop (s : State) (c : Cause) (p : PcValue) (w : Word) : State :=
  { s with engState := .fault, cause := c, faultPc := p, faultInstr := w, abortPending := false }

/-- The assignments of an accepted START (60_exceptions.md R250); also the return from a fault (R247): `pc` is kept. -/
def State.start (s : State) : State :=
  { s with engState := .running, cause := .none, faultPc := 0x0000#16, faultInstr := 0x00000000#32, accErr := false,
           abortPending := false }

/-- The assignments of an accepted ACK (60_exceptions.md R252). -/
def State.acknowledge (s : State) : State :=
  { s with engState := .idle, cause := .none, faultPc := 0x0000#16, faultInstr := 0x00000000#32, accErr := false }

/-- An accepted ABORT request (60_exceptions.md R251). -/
def State.requestAbort (s : State) : State := { s with abortPending := true }

/-- No abort is pending (10_state.md R32). -/
def State.clearAbort (s : State) : State := { s with abortPending := false }

/-- `ACCERR <- 1` (10_state.md R31, 20_memory.md R71). -/
def State.noteAccessError (s : State) : State := { s with accErr := true }

/-- Every register to its reset value; IMEM and DMEM are kept (10_state.md R50, 70_reset_and_hazards.md R280, R281). The
parameters are constants; the model's own fields are no registers of the engine. -/
def State.resetRegisters (s : State) : State :=
  { s with e := Vector.replicate 16 0x00#8, v := Vector.replicate 8 [], pc := 0x0000#16, engState := .idle, cause := .none,
           faultPc := 0x0000#16, faultInstr := 0x00000000#32, ieDone := false, ieFault := false, accErr := false,
           abortPending := false }

/-! ## How an instruction ends (30_encoding.md R110, R111) -/

/-- The default successor: the writes are performed and `pc` advances by one word, modulo 2^16 (30_encoding.md R110). -/
def State.retire (s : State) : Result := .next (s.setPc (s.pc + 1#16))

/-- The instruction transfers control (44_control.md R219). -/
def State.jumpTo (s : State) (target : PcValue) : Result := .next (s.setPc target)

/-- `raise Fault(c)` by the instruction at `pc` (00_scope.md R10, 30_encoding.md R110): no write of the instruction is
performed and the run stops. FAULT_INSTR takes the word of the instruction, which is the fetched word (DEDUCED, safe,
log 10: decoding loses no bit of a word). -/
def State.raise (s : State) (c : Cause) (i : Instr) : Result := .next (s.stop c s.pc (encode i))

end Sys2Proof.Machine
end

