-- ==== Sys2Proof/Machine/Operands.lean ====
section
/-! DEFINITION. The operand forms: indices held in element registers, DMEM ranges, lengths, branch targets, and the
numeric codes of named values. -/

namespace Sys2Proof.Machine

/-- An index is the 8-bit value of an element register read as an unsigned number (30_encoding.md R93, 43_data_movement.md
R180). -/
def indexOf (x : Element) : Nat := x.toNat

/-- The element at an index, if the index is below the length (43_data_movement.md R180). -/
def elementAt? (xs : Poly) (k : Nat) : Option Element := xs[k]?

/-- A DMEM access of `n` bytes at `addr` is in range when `addr + n <= DMEM_BYTES`, without wrap-around (20_memory.md
R76). -/
def dmemInRange (p : Params) (addr n : Nat) : Bool := decide (addr + n ≤ p.dmemBytes)

/-- A sequence of `n` elements fits a vector register (10_state.md R22, 41_polynomial.md R146). -/
def fitsVector (p : Params) (n : Nat) : Bool := decide (n ≤ p.vlmax)

/-- The target of a taken branch or jump at `p`: `(p + sext_16(off16)) mod 2^16`, counted from the instruction's own index
(44_control.md R219). -/
def branchTarget (p : PcValue) (off : Int) : PcValue := p + BitVec.ofInt 16 off

/-- The number of elements as an element value (43_data_movement.md R189: it fits 8 bits because `VLMAX <= 255`). -/
def lengthElement (xs : Poly) : Element := BitVec.ofNat 8 xs.length

/-- The numeric code of an engine state (10_state.md R27). -/
def EngState.code : EngState → BitVec 2
  | .idle => 0#2
  | .running => 1#2
  | .done => 2#2
  | .fault => 3#2

/-- The cause codes (60_exceptions.md R240). -/
def Cause.code : Cause → BitVec 8
  | .none => 0x00#8
  | .illegalInstruction => 0x01#8
  | .fetchRange => 0x02#8
  | .dmemRange => 0x03#8
  | .indexRange => 0x04#8
  | .lengthMismatch => 0x05#8
  | .capacity => 0x06#8
  | .zeroInverse => 0x07#8
  | .duplicateX => 0x08#8
  | .aborted => 0x09#8

end Sys2Proof.Machine
end

