-- ==== Sys2Proof/Machine/Flags.lean ====
section
/-! DEFINITION. The engine has no flags (10_state.md R25). This file holds the conditions that stand in their place: the
equality test of the branches, the `irq` level, and the words CTRL and STATUS read as. -/

namespace Sys2Proof.Machine

/-- The comparison of BEQ and BNE: equality of the two 8-bit values (44_control.md R223). -/
def elementsEqual (x y : Element) : Bool := x == y

/-- The engine takes steps only in RUNNING (30_encoding.md R110). -/
def State.isRunning (s : State) : Bool := s.engState == .running

/-- The level of the `irq` output (60_exceptions.md R260). -/
def State.irq (s : State) : Bool := (s.engState == .done && s.ieDone) || (s.engState == .fault && s.ieFault)

/-- What CTRL reads as: START and ABORT read 0, bits 2 and 3 are IE_DONE and IE_FAULT, the rest is reserved
(10_state.md R35). -/
def State.ctrlWord (s : State) : Word := 0#28 ++ BitVec.ofBool s.ieFault ++ BitVec.ofBool s.ieDone ++ 0#2

/-- What STATUS reads as (10_state.md R36): ACK and the reserved bits read 0, CAUSE in 15:8, ABORT_PENDING, ACCERR, IRQ,
STATE in 4:0. -/
def State.statusWord (s : State) : Word :=
  0#16 ++ s.cause.code ++ 0#3 ++ BitVec.ofBool s.abortPending ++ BitVec.ofBool s.accErr ++ BitVec.ofBool s.irq ++
    s.engState.code

end Sys2Proof.Machine
end

