-- ==== Sys2Proof/Machine/Control.lean ====
section
/-! DEFINITION. Control transfer and sequencing (44_control.md): HALT, NOP, JMP, BEQ, BNE. -/

namespace Sys2Proof.Machine

/-- HALT (44_control.md R220): `pc` advances, then ENG_STATE becomes DONE. -/
def execHalt (s : State) : Result := (s.setEngState .done).retire

/-- NOP (44_control.md R221). -/
def execNop (s : State) : Result := s.retire

/-- JMP (44_control.md R222). The target is not checked here (R219). -/
def execJmp (off : Int) (s : State) : Result := s.jumpTo (branchTarget s.pc off)

/-- BEQ (44_control.md R223). -/
def execBeq (a b : EReg) (off : Int) (s : State) : Result :=
  if elementsEqual (s.readE a) (s.readE b) then s.jumpTo (branchTarget s.pc off) else s.retire

/-- BNE (44_control.md R224). -/
def execBne (a b : EReg) (off : Int) (s : State) : Result :=
  if elementsEqual (s.readE a) (s.readE b) then s.retire else s.jumpTo (branchTarget s.pc off)

end Sys2Proof.Machine
end

