-- ==== Sys2Proof/Machine/Field.lean ====
section
/-! DEFINITION. The field arithmetic unit (40_field.md): the field functions, then GADD, GNEG, GMUL, GINV. -/

namespace Sys2Proof.Machine

/-! ## The field functions -/

/-- `gf_add` (40_field.md R120). -/
def gfAdd (a b : Element) : Element := a ^^^ b

/-- `gf_neg` (40_field.md R121). -/
def gfNeg (a : Element) : Element := a

/-- One shift of `gf_mul`'s `x`: left by one bit, reduced by `0x1B` when bit 7 shifts out (40_field.md R122). -/
def gfShift (x : Element) : Element := if x.getLsbD 7 then (x <<< 1) ^^^ 0x1B#8 else x <<< 1

/-- The repetitions of `gf_mul` (40_field.md R122). -/
def gfMulLoop : Nat → Element → Element → Element → Element
  | 0, acc, _, _ => acc
  | n + 1, acc, x, y => gfMulLoop n (if y.getLsbD 0 then acc ^^^ x else acc) (gfShift x) (y >>> 1)

/-- `gf_mul` (40_field.md R122): eight repetitions of shift and XOR. -/
def gfMul (a b : Element) : Element := gfMulLoop 8 0x00#8 a b

/-- The passes of `gf_inv`'s loop; the first argument bounds their number (40_field.md R124). -/
def gfPowLoop : Nat → Element → Element → BitVec 8 → Element
  | 0, r, _, _ => r
  | n + 1, r, base, e =>
    if e = 0#8 then r else gfPowLoop n (if e.getLsbD 0 then gfMul r base else r) (gfMul base base) (e >>> 1)

/-- `gf_inv` (40_field.md R124): `a^254` by square and multiply (254 has eight bits, so eight passes), undefined at 0. -/
def gfInv (a : Element) : Option Element := if a = 0x00#8 then none else some (gfPowLoop 8 0x01#8 a 254#8)

/-! ## The instructions -/

/-- GADD (40_field.md R126). -/
def execGadd (d a b : EReg) (s : State) : Result := (s.writeE d (gfAdd (s.readE a) (s.readE b))).retire

/-- GNEG (40_field.md R127). -/
def execGneg (d a : EReg) (s : State) : Result := (s.writeE d (gfNeg (s.readE a))).retire

/-- GMUL (40_field.md R128). -/
def execGmul (d a b : EReg) (s : State) : Result := (s.writeE d (gfMul (s.readE a) (s.readE b))).retire

/-- GINV (40_field.md R129): ZERO_INVERSE at 0. -/
def execGinv (d a : EReg) (s : State) : Result :=
  match gfInv (s.readE a) with
  | some x => (s.writeE d x).retire
  | none => s.raise .zeroInverse (.ginv d a)

end Sys2Proof.Machine
end

