-- ==== Sys2Proof/Machine/Polynomial.lean ====
section
/-! DEFINITION. The polynomial evaluator and the polynomial adder, multiplier and scaler (41_polynomial.md): the
polynomial functions, then PEVAL, PADD, PMUL, PSCALE. No operation normalises a sequence (R145). -/

namespace Sys2Proof.Machine

/-! ## The polynomial functions -/

/-- The coefficient at index `k`, `0x00` beyond the end (41_polynomial.md R141). -/
def coeff (p : Poly) (k : Nat) : Element := p.getD k 0x00#8

/-- `poly_eval` (41_polynomial.md R140): Horner's method from the highest index down, the accumulator starting at 0. -/
def polyEval (p : Poly) (x : Element) : Element := p.foldr (fun c acc => gfAdd (gfMul acc x) c) 0x00#8

/-- `poly_add` (41_polynomial.md R141): as long as the longer operand. -/
def polyAdd (p q : Poly) : Poly := (List.range (max p.length q.length)).map (fun k => gfAdd (coeff p k) (coeff q k))

/-- The assignment `r[k] <- gf_add(r[k], x)` of `poly_mul` (41_polynomial.md R142). -/
def addInto (r : Poly) (k : Nat) (x : Element) : Poly := r.set k (gfAdd (coeff r k) x)

/-- The inner loop of `poly_mul` for one `i` (41_polynomial.md R142): `j` over `0 .. len(q)-1`. -/
def polyMulRow (p q r : Poly) (i : Nat) : Poly :=
  (List.range q.length).foldl (fun r j => addInto r (i + j) (gfMul (coeff p i) (coeff q j))) r

/-- `poly_mul` (41_polynomial.md R142): the full convolution, `[]` when an operand is empty. -/
def polyMul (p q : Poly) : Poly :=
  if p.length = 0 ∨ q.length = 0 then []
  else (List.range p.length).foldl (polyMulRow p q) (List.replicate (p.length + q.length - 1) 0x00#8)

/-- `poly_scale` (41_polynomial.md R143). -/
def polyScale (p : Poly) (x : Element) : Poly := p.map (fun c => gfMul c x)

/-! ## The instructions -/

/-- PEVAL (41_polynomial.md R147). -/
def execPeval (d : EReg) (a : VReg) (b : EReg) (s : State) : Result :=
  (s.writeE d (polyEval (s.readV a) (s.readE b))).retire

/-- PADD (41_polynomial.md R148); the result is no longer than an operand (R146). -/
def execPadd (d a b : VReg) (s : State) : Result := (s.writeV d (polyAdd (s.readV a) (s.readV b))).retire

/-- PMUL (41_polynomial.md R149): CAPACITY when both operands are non-empty and the product is longer than `VLMAX`. -/
def execPmul (d a b : VReg) (s : State) : Result :=
  let m := (s.readV a).length
  let n := (s.readV b).length
  if 0 < m ∧ 0 < n ∧ ¬ fitsVector s.params (m + n - 1) then s.raise .capacity (.pmul d a b)
  else (s.writeV d (polyMul (s.readV a) (s.readV b))).retire

/-- PSCALE (41_polynomial.md R150). -/
def execPscale (d a : VReg) (b : EReg) (s : State) : Result := (s.writeV d (polyScale (s.readV a) (s.readE b))).retire

end Sys2Proof.Machine
end

