-- ==== Sys2Proof/Machine/Lagrange.lean ====
section
/-! DEFINITION. The Lagrange-basis generator and the Lagrange interpolation engine (42_lagrange.md): the functions, then
LBASIS and LINTERP. -/

namespace Sys2Proof.Machine

/-! ## The Lagrange functions -/

/-- One pass of `lagrange_basis`'s loop (42_lagrange.md R160): the running numerator and denominator take the factor of
`j`; `j = i` is left out. -/
def basisStep (xs : Poly) (i : Nat) (nd : Poly × Element) (j : Nat) : Poly × Element :=
  if j = i then nd
  else (polyMul nd.1 [gfNeg (coeff xs j), 0x01#8], gfMul nd.2 (gfAdd (coeff xs i) (coeff xs j)))

/-- The numerator and denominator after the loop (42_lagrange.md R160), from `[0x01]` and `0x01`. -/
def basisProducts (i : Nat) (xs : Poly) : Poly × Element := (List.range xs.length).foldl (basisStep xs i) ([0x01#8], 0x01#8)

/-- `lagrange_basis` for `i < len(xs)` (42_lagrange.md R160): ZERO_INVERSE when the denominator is 0. -/
def lagrangeBasis (i : Nat) (xs : Poly) : Except Cause Poly :=
  match gfInv (basisProducts i xs).2 with
  | some x => .ok (polyScale (basisProducts i xs).1 x)
  | none => .error .zeroInverse

/-- Some `j < k` have `xs[j] = xs[k]` (42_lagrange.md R161). -/
def hasDuplicate : Poly → Bool
  | [] => false
  | x :: xs => xs.contains x || hasDuplicate xs

/-- One pass of `lagrange_interp`'s loop (42_lagrange.md R161). -/
def interpStep (xs ys : Poly) (r : Except Cause Poly) (i : Nat) : Except Cause Poly :=
  match r, lagrangeBasis i xs with
  | .ok p, .ok l => .ok (polyAdd p (polyScale l (coeff ys i)))
  | .error c, _ => .error c
  | .ok _, .error c => .error c

/-- `lagrange_interp` (42_lagrange.md R161): LENGTH_MISMATCH, then DUPLICATE_X, before any basis. -/
def lagrangeInterp (xs ys : Poly) : Except Cause Poly :=
  if xs.length ≠ ys.length then .error .lengthMismatch
  else if hasDuplicate xs then .error .duplicateX
  else (List.range xs.length).foldl (interpStep xs ys) (.ok [])

/-! ## The instructions -/

/-- LBASIS (42_lagrange.md R163): INDEX_RANGE, then ZERO_INVERSE. -/
def execLbasis (d a : VReg) (b : EReg) (s : State) : Result :=
  if (s.readV a).length ≤ indexOf (s.readE b) then s.raise .indexRange (.lbasis d a b)
  else match lagrangeBasis (indexOf (s.readE b)) (s.readV a) with
    | .ok p => (s.writeV d p).retire
    | .error c => s.raise c (.lbasis d a b)

/-- LINTERP (42_lagrange.md R164): LENGTH_MISMATCH, then DUPLICATE_X. -/
def execLinterp (d a b : VReg) (s : State) : Result :=
  match lagrangeInterp (s.readV a) (s.readV b) with
  | .ok p => (s.writeV d p).retire
  | .error c => s.raise c (.linterp d a b)

end Sys2Proof.Machine
end

