-- ==== Sys2Proof/Machine/Movement.lean ====
section
/-! DEFINITION. Data movement (43_data_movement.md): ELI, EMOV, EINC, ELD, EST, VLD, VST, VMOV, VLEN, VGET, VSET, VCLR.
Every check stands before any write (R180). -/

namespace Sys2Proof.Machine

/-! ## Element registers -/

/-- ELI (43_data_movement.md R181). -/
def execEli (d : EReg) (imm : Element) (s : State) : Result := (s.writeE d imm).retire

/-- EMOV (43_data_movement.md R182). -/
def execEmov (d a : EReg) (s : State) : Result := (s.writeE d (s.readE a)).retire

/-- EINC (43_data_movement.md R183): integer addition of 1 modulo 256. -/
def execEinc (d a : EReg) (s : State) : Result := (s.writeE d (s.readE a + 1#8)).retire

/-- ELD (43_data_movement.md R184). -/
def execEld (r : EReg) (addr : Nat) (s : State) : Result :=
  if dmemInRange s.params addr 1 then (s.writeE r (s.dmemByte addr)).retire
  else s.raise .dmemRange (.eld r addr)

/-- EST (43_data_movement.md R185). -/
def execEst (r : EReg) (addr : Nat) (s : State) : Result :=
  if dmemInRange s.params addr 1 then (s.dmemWrite addr [s.readE r]).retire
  else s.raise .dmemRange (.est r addr)

/-! ## Vector registers -/

/-- VLD (43_data_movement.md R186): CAPACITY, then DMEM_RANGE. -/
def execVld (r : VReg) (len addr : Nat) (s : State) : Result :=
  if ¬ fitsVector s.params len then s.raise .capacity (.vld r len addr)
  else if ¬ dmemInRange s.params addr len then s.raise .dmemRange (.vld r len addr)
  else (s.writeV r (s.dmemRead addr len)).retire

/-- VST (43_data_movement.md R187). -/
def execVst (r : VReg) (addr : Nat) (s : State) : Result :=
  if dmemInRange s.params addr (s.readV r).length then (s.dmemWrite addr (s.readV r)).retire
  else s.raise .dmemRange (.vst r addr)

/-- VMOV (43_data_movement.md R188). -/
def execVmov (d a : VReg) (s : State) : Result := (s.writeV d (s.readV a)).retire

/-- VLEN (43_data_movement.md R189). -/
def execVlen (d : EReg) (a : VReg) (s : State) : Result := (s.writeE d (lengthElement (s.readV a))).retire

/-- VGET (43_data_movement.md R190): INDEX_RANGE when the index is not below the length. -/
def execVget (d : EReg) (a : VReg) (b : EReg) (s : State) : Result :=
  match elementAt? (s.readV a) (indexOf (s.readE b)) with
  | some x => (s.writeE d x).retire
  | none => s.raise .indexRange (.vget d a b)

/-- VSET (43_data_movement.md R191): one element is replaced, the length is kept; `a` is the index, `b` the value. -/
def execVset (d : VReg) (a b : EReg) (s : State) : Result :=
  if (s.readV d).length ≤ indexOf (s.readE a) then s.raise .indexRange (.vset d a b)
  else (s.writeV d ((s.readV d).set (indexOf (s.readE a)) (s.readE b))).retire

/-- VCLR (43_data_movement.md R192). -/
def execVclr (d : VReg) (len : Nat) (s : State) : Result :=
  if fitsVector s.params len then (s.writeV d (List.replicate len 0x00#8)).retire
  else s.raise .capacity (.vclr d len)

end Sys2Proof.Machine
end

