-- ==== Sys2Proof/Machine/Dispatch.lean ====
section
/-! DEFINITION. `Execute` (30_encoding.md R110): one arm per instruction, each one call of its meaning. -/

namespace Sys2Proof.Machine

-- What each instruction does, as its rule says (the rules are named at the constructors of Instr).
def exec (i : Instr) (s : State) : Host.Outcome State Fault Refusal :=
  match i with
  | .gadd d a b => Sys2Proof.Machine.execGadd d a b s
  | .gneg d a => Sys2Proof.Machine.execGneg d a s
  | .gmul d a b => Sys2Proof.Machine.execGmul d a b s
  | .ginv d a => Sys2Proof.Machine.execGinv d a s
  | .peval d a b => Sys2Proof.Machine.execPeval d a b s
  | .padd d a b => Sys2Proof.Machine.execPadd d a b s
  | .pmul d a b => Sys2Proof.Machine.execPmul d a b s
  | .pscale d a b => Sys2Proof.Machine.execPscale d a b s
  | .lbasis d a b => Sys2Proof.Machine.execLbasis d a b s
  | .linterp d a b => Sys2Proof.Machine.execLinterp d a b s
  | .eli d imm => Sys2Proof.Machine.execEli d imm s
  | .emov d a => Sys2Proof.Machine.execEmov d a s
  | .einc d a => Sys2Proof.Machine.execEinc d a s
  | .eld r addr => Sys2Proof.Machine.execEld r addr s
  | .est r addr => Sys2Proof.Machine.execEst r addr s
  | .vld r len addr => Sys2Proof.Machine.execVld r len addr s
  | .vst r addr => Sys2Proof.Machine.execVst r addr s
  | .vmov d a => Sys2Proof.Machine.execVmov d a s
  | .vlen d a => Sys2Proof.Machine.execVlen d a s
  | .vget d a b => Sys2Proof.Machine.execVget d a b s
  | .vset d a b => Sys2Proof.Machine.execVset d a b s
  | .vclr d len => Sys2Proof.Machine.execVclr d len s
  | .halt => Sys2Proof.Machine.execHalt s
  | .nop => Sys2Proof.Machine.execNop s
  | .jmp off => Sys2Proof.Machine.execJmp off s
  | .beq a b off => Sys2Proof.Machine.execBeq a b off s
  | .bne a b off => Sys2Proof.Machine.execBne a b off s

end Sys2Proof.Machine
end

