-- ==== Sys2Proof/Machine/HostBus.lean ====
section
/-! DEFINITION. The host register window (20_memory.md R65 to R71, 10_state.md R34 to R39) and the run control the host
has through it (60_exceptions.md R250 to R253). -/

namespace Sys2Proof.Machine

/-! ## The address map -/

/-- What a word of the host window is (20_memory.md R66). -/
inductive HostTarget where
  | id | ctrl | status | pc | faultPc | faultInstr | config0 | config1
  /-- The word of `E[k]` (20_memory.md R67). -/
  | ereg (k : EReg)
  /-- DMEM bytes `4k` to `4k+3` (20_memory.md R68). -/
  | dmem (k : Nat)
  /-- `IMem[k]` (20_memory.md R69). -/
  | imem (k : Nat)
  | unmapped
deriving DecidableEq, Repr

/-- The fixed registers by word index 0 to 7 (20_memory.md R66). -/
def hostRegister : Nat → HostTarget
  | 0 => .id
  | 1 => .ctrl
  | 2 => .status
  | 3 => .pc
  | 4 => .faultPc
  | 5 => .faultInstr
  | 6 => .config0
  | 7 => .config1
  | _ => .unmapped

/-- The target of an access at byte offset `off` (20_memory.md R65, R66): offset bits 1:0 are ignored, so the word index is
`off / 4`; EREG starts at `0x100`, DMEM at `0x1000`, IMEM at `0x2000`; R68 and R69 say which words are mapped. -/
def hostTarget (p : Params) (off : HostOffset) : HostTarget :=
  let w := off.toNat / 4
  if h : 64 ≤ w ∧ w < 80 then .ereg ⟨w - 64, by omega⟩
  else if 1024 ≤ w ∧ w < 2048 then (if 4 * (w - 1024) + 3 < p.dmemBytes then .dmem (w - 1024) else .unmapped)
  else if 2048 ≤ w then (if w - 2048 < p.imemWords then .imem (w - 2048) else .unmapped)
  else hostRegister w

/-- The locked resources (20_memory.md R71): PC, EREG and the mapped words of the DMEM and IMEM windows. -/
def HostTarget.isLockable : HostTarget → Bool
  | .pc | .ereg _ | .dmem _ | .imem _ => true
  | .id | .ctrl | .status | .faultPc | .faultInstr | .config0 | .config1 | .unmapped => false

/-- The offset inside the window of a platform address, if it lies in the window; what lies outside is the platform's
(20_memory.md R66, 00_scope.md R8). -/
def windowOffset? (p : Params) (addr : Nat) : Option HostOffset :=
  if p.hostBase ≤ addr ∧ addr < p.hostBase + 16384 then some (BitVec.ofNat 14 (addr - p.hostBase)) else none

/-! ## What words read as -/

/-- CONFIG0 (10_state.md R39): VLMAX in 7:0, IMEM_WORDS in 31:16. -/
def config0Word (p : Params) : Word := BitVec.ofNat 16 p.imemWords ++ 0#8 ++ BitVec.ofNat 8 p.vlmax

/-- CONFIG1 (10_state.md R39): DMEM_BYTES in 15:0. -/
def config1Word (p : Params) : Word := 0#16 ++ BitVec.ofNat 16 p.dmemBytes

/-- The DMEM window word `k`: byte `4k` in bits 7:0, byte `4k+3` in bits 31:24 (20_memory.md R62, R68). -/
def State.dmemWord (s : State) (k : Nat) : Word :=
  s.dmemByte (4 * k + 3) ++ s.dmemByte (4 * k + 2) ++ s.dmemByte (4 * k + 1) ++ s.dmemByte (4 * k)

/-- The value of a window word when it may be read (10_state.md R34 to R39, 20_memory.md R67 to R70). -/
def State.hostValue (s : State) : HostTarget → Word
  | .id => Config.idWord
  | .ctrl => s.ctrlWord
  | .status => s.statusWord
  | .pc => BitVec.setWidth 32 s.pc
  | .faultPc => BitVec.setWidth 32 s.faultPc
  | .faultInstr => s.faultInstr
  | .config0 => config0Word s.params
  | .config1 => config1Word s.params
  | .ereg k => BitVec.setWidth 32 (s.readE k)
  | .dmem k => s.dmemWord k
  | .imem k => s.imemWord k
  | .unmapped => 0#32

/-! ## Host accesses -/

/-- A host read (20_memory.md R65, R70, R71): the word returned and the state after. While `rst` is asserted it has no
effect and reads 0 (70_reset_and_hazards.md R280). -/
def State.hostRead (s : State) (off : HostOffset) : Word × State :=
  if s.rst then (0#32, s)
  else if s.isRunning && (hostTarget s.params off).isLockable then (0#32, s.noteAccessError)
  else (s.hostValue (hostTarget s.params off), s)

/-- A host write to CTRL (10_state.md R35, 60_exceptions.md R250, R251, R253): the interrupt enables, then at most one
action, each testing ENG_STATE as it was. -/
def State.writeCtrl (s : State) (data : Word) : State :=
  let t := s.setEnables (data.getLsbD 2) (data.getLsbD 3)
  if s.isRunning then (if data.getLsbD 1 then t.requestAbort else t)
  else if data.getLsbD 0 then t.start
  else t

/-- A host write to STATUS (10_state.md R36, 60_exceptions.md R252): bit 31 acknowledges when not RUNNING. -/
def State.writeStatus (s : State) (data : Word) : State :=
  if data.getLsbD 31 && !s.isRunning then s.acknowledge else s

/-- The four bytes of a word, lowest lane first (20_memory.md R62). -/
def lanes (data : Word) : Poly :=
  [data.extractLsb' 0 8, data.extractLsb' 8 8, data.extractLsb' 16 8, data.extractLsb' 24 8]

/-- The effect of a write to a window word that may be written; read-only registers and unmapped words ignore it
(10_state.md R34 to R39, 20_memory.md R67 to R70). -/
def State.hostStore (s : State) (data : Word) : HostTarget → State
  | .ctrl => s.writeCtrl data
  | .status => s.writeStatus data
  | .pc => s.setPc (data.extractLsb' 0 16)
  | .ereg k => s.writeE k (data.extractLsb' 0 8)
  | .dmem k => s.dmemWrite (4 * k) (lanes data)
  | .imem k => s.imemWrite k data
  | .id | .faultPc | .faultInstr | .config0 | .config1 | .unmapped => s

/-- A host write of a whole word (20_memory.md R65, R70, R71; 70_reset_and_hazards.md R280 while `rst` is asserted). -/
def State.hostWrite (s : State) (off : HostOffset) (data : Word) : State :=
  if s.rst then s
  else if s.isRunning && (hostTarget s.params off).isLockable then s.noteAccessError
  else s.hostStore data (hostTarget s.params off)

/-- The byte the engine takes from lane `j` of a narrow write: the host's where it drives the lane, a free value elsewhere
(20_memory.md R65, 93_implementation_defined.md U5, log 8). -/
def narrowLane (draw : Nat) (drives : BitVec 4) (data : Word) (j : Nat) : Element :=
  if drives.getLsbD j then data.extractLsb' (8 * j) 8 else Config.undrivenLane (draw + j)

/-- The word the engine takes from a narrow write (20_memory.md R65). -/
def narrowWord (draw : Nat) (drives : BitVec 4) (data : Word) : Word :=
  narrowLane draw drives data 3 ++ narrowLane draw drives data 2 ++ narrowLane draw drives data 1 ++
    narrowLane draw drives data 0

/-- A host write that drives only some lanes: the whole word is written (20_memory.md R65). Four draws are used up. -/
def State.hostWriteNarrow (s : State) (off : HostOffset) (drives : BitVec 4) (data : Word) : State :=
  (s.hostWrite off (narrowWord s.freeDraws drives data)).setFreeDraws (s.freeDraws + 4)

end Sys2Proof.Machine
end

