-- ==== Sys2Proof/Machine/Cycle.lean ====
section
/-! DEFINITION. The engine cycle (30_encoding.md R110), the events of the interleaving (70_reset_and_hazards.md R290), and
how a word is placed for the next fetch. -/

namespace Sys2Proof.Machine

/-! ## The engine -/

/-- Decode the fetched word and execute it; an illegal word stops the run (30_encoding.md R110, 60_exceptions.md R243). -/
def executeWord (w : Word) (s : State) : Result :=
  match decode w with
  | .ok i => exec i s
  | .error _ => .next (s.stop .illegalInstruction s.pc w)

/-- One engine cycle (30_encoding.md R110): a pending abort, then the fetch range, then decode and execute. -/
def engineCycle (s : State) : Result :=
  if s.abortPending then .next (s.stop .aborted s.pc 0#32)
  else if s.params.imemWords ≤ s.pc.toNat then .next (s.stop .fetchRange s.pc 0#32)
  else executeWord (s.imemWord s.pc.toNat) s

/-- The engine's turn: a cycle while RUNNING; otherwise, and while `rst` is asserted, it takes no step and changes nothing
(30_encoding.md R110, 60_exceptions.md R271, 70_reset_and_hazards.md R280, log 6). -/
def engineTurn (s : State) : Result := if !s.rst && s.isRunning then engineCycle s else .next s

/-! ## The events -/

/-- A read on the host bus; the word it returns is left in `hostData` (10_state.md R43, log 7). -/
def busRead (off : HostOffset) (s : State) : State := (s.hostRead off).2.setHostData (s.hostRead off).1

/-- `rst` becomes asserted: every register takes its reset value, the memories are kept (70_reset_and_hazards.md R280,
R281). -/
def assertReset (s : State) : State := s.resetRegisters.setRst true

/-- `rst` becomes released: the engine stays IDLE (70_reset_and_hazards.md R280). -/
def releaseReset (s : State) : State := s.setRst false

/-- What an event does. -/
def takeEvent (ev : Event) (s : State) : Result :=
  match ev with
  | .engineCycle => engineTurn s
  | .hostRead off => .next (busRead off s)
  | .hostWrite off data => .next (s.hostWrite off data)
  | .hostWriteNarrow off drives data => .next (s.hostWriteNarrow off drives data)
  | .assertReset => .next (assertReset s)
  | .releaseReset => .next (releaseReset s)

/-- One atomic step of the system (70_reset_and_hazards.md R290): the first event of the schedule, or the engine's turn when
the schedule is empty, so that host accesses cannot starve the engine (R291, log 5). -/
def systemStep (s : State) : Result :=
  match s.schedule with
  | [] => engineTurn s
  | ev :: rest => takeEvent ev (s.setSchedule rest)

/-- A step of a machine whose parameters are in the ranges of 00_scope.md R8; other parameters are no GFLE (log 4). -/
def guardedStep (s : State) : Result := if s.params.legal then systemStep s else .fault .parametersOutOfRange

/-! ## Placing a word for the next fetch -/

/-- The index the next fetch reads: `pc`, or 0 where `pc` lies outside IMEM. -/
def fetchIndex (s : State) : PcValue := if s.pc.toNat < s.params.imemWords then s.pc else 0x0000#16

/-- With `w` at the index the next fetch reads, `rst` released, no abort pending and nothing scheduled before the engine. -/
def placeWord (w : Word) (s : State) : State :=
  ((((s.imemWrite (fetchIndex s).toNat w).setPc (fetchIndex s)).setRst false).setSchedule []).clearAbort

/-- A run in progress that fetches `w` next: the host's load and, where the engine is not RUNNING, its START
(70_reset_and_hazards.md R282, 60_exceptions.md R250, log 11). -/
def readyToFetch (w : Word) (s : State) : State := if s.isRunning then placeWord w s else (placeWord w s).start

end Sys2Proof.Machine
end

