-- ==== Sys2Proof/Machine/Step.lean ====
section
/-! DEFINITION. The step of the machine, and the state in which the next step fetches a given word. -/

namespace Sys2Proof.Machine

/-- One step of the system: `guardedStep`. -/
def step (s : State) : Host.Outcome State Fault Refusal := guardedStep s

/-- `s` with the instruction whose low `nbits` bits are those of `w` stored where the next step fetches, and everything set
that this takes (log 11). -/
def State.withFetchWord (s : State) (nbits w : Nat) : State := readyToFetch (BitVec.ofNat 32 (w % 2 ^ nbits)) s

end Sys2Proof.Machine
end

