-- ==== Sys2Proof/Machine/Assembler.lean ====
section
/-! DEFINITION. The assembly language (30_encoding.md R100 to R104): the pseudo-instructions, the disassembler and the
assembler. Text is a list of characters. Points the spec leaves open are log 14. -/

namespace Sys2Proof.Machine

/-- Source text. -/
abbrev Text := List Char

/-! ## Pseudo-instructions (30_encoding.md R103) -/

/-- The pseudo-instructions. -/
inductive Pseudo where
  | gsub (d a b : EReg)
  | psub (d a b : VReg)
  | pneg (d a : VReg)
  | eclr (d : EReg)
  | vempty (d : VReg)
  | branch (off : Int)
deriving DecidableEq, Repr

/-- The one instruction a pseudo-instruction stands for (30_encoding.md R103). -/
def Pseudo.expand : Pseudo → Instr
  | .gsub d a b => .gadd d a b
  | .psub d a b => .padd d a b
  | .pneg d a => .vmov d a
  | .eclr d => .eli d 0x00#8
  | .vempty d => .vclr d 0
  | .branch off => .jmp off

/-! ## Names -/

/-- The canonical spelling of a mnemonic (30_encoding.md R100, R104). -/
def mnemonicName : Mnemonic → Text
  | .gadd => "GADD".toList
  | .gneg => "GNEG".toList
  | .gmul => "GMUL".toList
  | .ginv => "GINV".toList
  | .peval => "PEVAL".toList
  | .padd => "PADD".toList
  | .pmul => "PMUL".toList
  | .pscale => "PSCALE".toList
  | .lbasis => "LBASIS".toList
  | .linterp => "LINTERP".toList
  | .eli => "ELI".toList
  | .emov => "EMOV".toList
  | .einc => "EINC".toList
  | .eld => "ELD".toList
  | .est => "EST".toList
  | .vld => "VLD".toList
  | .vst => "VST".toList
  | .vmov => "VMOV".toList
  | .vlen => "VLEN".toList
  | .vget => "VGET".toList
  | .vset => "VSET".toList
  | .vclr => "VCLR".toList
  | .halt => "HALT".toList
  | .nop => "NOP".toList
  | .jmp => "JMP".toList
  | .beq => "BEQ".toList
  | .bne => "BNE".toList

/-! ## The disassembler (30_encoding.md R104) -/

/-- A hexadecimal digit, upper case (00_scope.md R15). -/
def hexDigit (n : Nat) : Char := ("0123456789ABCDEF".toList).getD (n % 16) '0'

/-- The low `k` hexadecimal digits of a number. -/
def hexDigits : Nat → Nat → Text
  | 0, _ => []
  | k + 1, n => hexDigits k (n / 16) ++ [hexDigit n]

/-- `0x` and `k` digits. -/
def hexText (k n : Nat) : Text := '0' :: 'x' :: hexDigits k n

/-- A number in decimal. -/
def decText (n : Nat) : Text := Nat.toDigits 10 n

/-- A signed number in decimal. -/
def intText (i : Int) : Text := if i < 0 then '-' :: decText i.natAbs else decText i.natAbs

/-- `e0` to `e15`. -/
def eText (r : EReg) : Text := 'e' :: decText r.val
/-- `v0` to `v7`. -/
def vText (r : VReg) : Text := 'v' :: decText r.val

/-- Operands separated by a comma and a space. -/
def joinOperands : List Text → Text
  | [] => []
  | [x] => x
  | x :: xs => x ++ ", ".toList ++ joinOperands xs

/-- The operands of an instruction in the order of 30_encoding.md R101, in the spelling of R104. -/
def operandTexts : Instr → List Text
  | .gadd d a b => [eText d, eText a, eText b]
  | .gneg d a => [eText d, eText a]
  | .gmul d a b => [eText d, eText a, eText b]
  | .ginv d a => [eText d, eText a]
  | .peval d a b => [eText d, vText a, eText b]
  | .padd d a b => [vText d, vText a, vText b]
  | .pmul d a b => [vText d, vText a, vText b]
  | .pscale d a b => [vText d, vText a, eText b]
  | .lbasis d a b => [vText d, vText a, eText b]
  | .linterp d a b => [vText d, vText a, vText b]
  | .eli d imm => [eText d, hexText 2 imm.toNat]
  | .emov d a => [eText d, eText a]
  | .einc d a => [eText d, eText a]
  | .eld r addr => [eText r, hexText 3 addr]
  | .est r addr => [eText r, hexText 3 addr]
  | .vld r len addr => [vText r, hexText 3 addr, decText len]
  | .vst r addr => [vText r, hexText 3 addr]
  | .vmov d a => [vText d, vText a]
  | .vlen d a => [eText d, vText a]
  | .vget d a b => [eText d, vText a, eText b]
  | .vset d a b => [vText d, eText a, eText b]
  | .vclr d len => [vText d, hexText 2 len]
  | .halt => []
  | .nop => []
  | .jmp off => [intText off]
  | .beq a b off => [eText a, eText b, intText off]
  | .bne a b off => [eText a, eText b, intText off]

/-- The canonical text of an instruction (30_encoding.md R104). -/
def instrText (i : Instr) : Text :=
  match operandTexts i with
  | [] => mnemonicName i.mnemonic
  | ops => mnemonicName i.mnemonic ++ ' ' :: joinOperands ops

/-- The disassembly of a word; an illegal word prints as `.word` (30_encoding.md R104). -/
def disassemble (w : Word) : Text :=
  match decode w with
  | .ok i => instrText i
  | .error _ => ".word ".toList ++ hexText 8 w.toNat

/-! ## Lexical syntax (30_encoding.md R100) -/

/-- Blank characters between the parts of a line. -/
def isBlank (c : Char) : Bool := c == ' ' || c == '\t' || c == '\r'

/-- Without blanks at either end. -/
def trim (t : Text) : Text := ((t.dropWhile isBlank).reverse.dropWhile isBlank).reverse

/-- Without the comment, which begins at `;`. -/
def withoutComment (t : Text) : Text := t.takeWhile (fun c => c != ';')

/-- The pieces between separators. -/
def splitAtChar (sep : Char) : Text → List Text
  | [] => [[]]
  | c :: t =>
    match splitAtChar sep t with
    | [] => [[c]]
    | p :: ps => if c == sep then [] :: p :: ps else (c :: p) :: ps

/-- A letter or `_`. -/
def isNameStart (c : Char) : Bool := c.isAlpha || c == '_'
/-- A letter, a digit or `_`. -/
def isNameChar (c : Char) : Bool := c.isAlphanum || c == '_'

/-- An identifier: a letter or `_`, then letters, digits or `_`. -/
def isName : Text → Bool
  | [] => false
  | c :: t => isNameStart c && t.all isNameChar

/-- A decimal digit. -/
def decValue (c : Char) : Option Nat := if c.isDigit then some (c.toNat - '0'.toNat) else none

/-- A hexadecimal digit of either case. -/
def hexValue (c : Char) : Option Nat :=
  if c.isDigit then some (c.toNat - '0'.toNat)
  else if 'a' ≤ c.toLower ∧ c.toLower ≤ 'f' then some (c.toLower.toNat - 'a'.toNat + 10)
  else none

/-- The value of digits in a base, after the digits already read. -/
def digitsValue (value : Char → Option Nat) (base : Nat) : Nat → Text → Option Nat
  | acc, [] => some acc
  | acc, c :: t =>
    match value c with
    | some d => digitsValue value base (acc * base + d) t
    | none => none

/-- A decimal number without a sign. -/
def decimal? (t : Text) : Option Nat := if t.isEmpty then none else digitsValue decValue 10 0 t

/-- A number: decimal, with a minus sign or without, or hexadecimal with the prefix `0x` (30_encoding.md R100). -/
def number? : Text → Option Int
  | '0' :: 'x' :: t => if t.isEmpty then none else (digitsValue hexValue 16 0 t).map Int.ofNat
  | '-' :: t => (decimal? t).map (fun n => - Int.ofNat n)
  | t => (decimal? t).map Int.ofNat

/-! ## Operands (30_encoding.md R101, R102) -/

/-- `e0` to `e15`, in either case. -/
def eOperand? (t : Text) : Option EReg := (List.finRange 16).find? (fun r => eText r == t.map Char.toLower)

/-- `v0` to `v7`, in either case. -/
def vOperand? (t : Text) : Option VReg := (List.finRange 8).find? (fun r => vText r == t.map Char.toLower)

/-- A number of 0 to `bound`; the assembler rejects a value outside the field's range (30_encoding.md R101). -/
def countOperand? (bound : Nat) (t : Text) : Option Nat :=
  match number? t with
  | some n => if 0 ≤ n ∧ n ≤ Int.ofNat bound then some n.toNat else none
  | none => none

/-- The labels of a program and the IMEM indices they name. -/
abbrev Labels := List (Text × Nat)

/-- A branch target of the instruction at index `p`: a number is the offset itself, a label at index `t` gives `t - p`
(30_encoding.md R102). -/
def targetOperand? (labels : Labels) (p : Nat) (t : Text) : Option Int :=
  let off : Option Int := if isName t then (labels.lookup t).map (fun k => Int.ofNat k - Int.ofNat p) else number? t
  match off with
  | some n => if offsetFits n then some n else none
  | none => none

/-- The instruction a mnemonic and its operands spell (30_encoding.md R101). -/
def instrOf? (labels : Labels) (p : Nat) : Mnemonic → List Text → Option Instr
  | .gadd, [d, a, b] => do return .gadd (← eOperand? d) (← eOperand? a) (← eOperand? b)
  | .gneg, [d, a] => do return .gneg (← eOperand? d) (← eOperand? a)
  | .gmul, [d, a, b] => do return .gmul (← eOperand? d) (← eOperand? a) (← eOperand? b)
  | .ginv, [d, a] => do return .ginv (← eOperand? d) (← eOperand? a)
  | .peval, [d, a, b] => do return .peval (← eOperand? d) (← vOperand? a) (← eOperand? b)
  | .padd, [d, a, b] => do return .padd (← vOperand? d) (← vOperand? a) (← vOperand? b)
  | .pmul, [d, a, b] => do return .pmul (← vOperand? d) (← vOperand? a) (← vOperand? b)
  | .pscale, [d, a, b] => do return .pscale (← vOperand? d) (← vOperand? a) (← eOperand? b)
  | .lbasis, [d, a, b] => do return .lbasis (← vOperand? d) (← vOperand? a) (← eOperand? b)
  | .linterp, [d, a, b] => do return .linterp (← vOperand? d) (← vOperand? a) (← vOperand? b)
  | .eli, [d, n] => do return .eli (← eOperand? d) (BitVec.ofNat 8 (← countOperand? 255 n))
  | .emov, [d, a] => do return .emov (← eOperand? d) (← eOperand? a)
  | .einc, [d, a] => do return .einc (← eOperand? d) (← eOperand? a)
  | .eld, [r, n] => do return .eld (← eOperand? r) (← countOperand? 4095 n)
  | .est, [r, n] => do return .est (← eOperand? r) (← countOperand? 4095 n)
  | .vld, [r, n, l] => do return .vld (← vOperand? r) (← countOperand? 255 l) (← countOperand? 4095 n)
  | .vst, [r, n] => do return .vst (← vOperand? r) (← countOperand? 4095 n)
  | .vmov, [d, a] => do return .vmov (← vOperand? d) (← vOperand? a)
  | .vlen, [d, a] => do return .vlen (← eOperand? d) (← vOperand? a)
  | .vget, [d, a, b] => do return .vget (← eOperand? d) (← vOperand? a) (← eOperand? b)
  | .vset, [d, a, b] => do return .vset (← vOperand? d) (← eOperand? a) (← eOperand? b)
  | .vclr, [d, l] => do return .vclr (← vOperand? d) (← countOperand? 255 l)
  | .halt, [] => some .halt
  | .nop, [] => some .nop
  | .jmp, [t] => do return .jmp (← targetOperand? labels p t)
  | .beq, [a, b, t] => do return .beq (← eOperand? a) (← eOperand? b) (← targetOperand? labels p t)
  | .bne, [a, b, t] => do return .bne (← eOperand? a) (← eOperand? b) (← targetOperand? labels p t)
  | _, _ => none

/-- The pseudo-instruction a name and its operands spell (30_encoding.md R103). -/
def pseudoOf? (labels : Labels) (p : Nat) (name : Text) (ops : List Text) : Option Pseudo :=
  if name == "GSUB".toList then
    match ops with
    | [d, a, b] => do return .gsub (← eOperand? d) (← eOperand? a) (← eOperand? b)
    | _ => none
  else if name == "PSUB".toList then
    match ops with
    | [d, a, b] => do return .psub (← vOperand? d) (← vOperand? a) (← vOperand? b)
    | _ => none
  else if name == "PNEG".toList then
    match ops with
    | [d, a] => do return .pneg (← vOperand? d) (← vOperand? a)
    | _ => none
  else if name == "ECLR".toList then
    match ops with
    | [d] => do return .eclr (← eOperand? d)
    | _ => none
  else if name == "VEMPTY".toList then
    match ops with
    | [d] => do return .vempty (← vOperand? d)
    | _ => none
  else if name == "B".toList then
    match ops with
    | [t] => do return .branch (← targetOperand? labels p t)
    | _ => none
  else none

/-! ## Lines and programs (30_encoding.md R100) -/

/-- A line without its comment: the label it defines, if any, and its statement, blanks trimmed. -/
structure Line where
  label : Option Text
  statement : Text
deriving DecidableEq, Repr

/-- A label is an identifier followed by `:` at the start of a line (30_encoding.md R100). -/
def lineOf (raw : Text) : Line :=
  let t := trim (withoutComment raw)
  let name := t.takeWhile isNameChar
  match t.dropWhile isNameChar with
  | ':' :: rest => if isName name then { label := some name, statement := trim rest } else { label := none, statement := t }
  | _ => { label := none, statement := t }

/-- The operands of a statement: none, or texts separated by commas. -/
def operandsOf (t : Text) : List Text := if (trim t).isEmpty then [] else (splitAtChar ',' t).map trim

/-- The instruction a statement at index `p` stands for; mnemonics are case-insensitive (30_encoding.md R100). -/
def statementInstr? (labels : Labels) (p : Nat) (t : Text) : Option Instr :=
  let name := (t.takeWhile isNameChar).map Char.toUpper
  let rest := t.dropWhile isNameChar
  let separated : Bool := match rest with
    | [] => true
    | c :: _ => isBlank c
  if separated then
    match Mnemonic.all.find? (fun m => mnemonicName m == name) with
    | some m => instrOf? labels p m (operandsOf rest)
    | none => (pseudoOf? labels p name (operandsOf rest)).map Pseudo.expand
  else none

/-- Why a program does not assemble. -/
inductive AsmError where
  /-- Two lines define the same label (log 14). -/
  | duplicateLabel (name : Text)
  /-- A statement is none of 30_encoding.md R101 to R103, or a value is outside its field's range. -/
  | badStatement (text : Text)
deriving DecidableEq, Repr

/-- The labels of lines whose first statement has index `p`: each names the index of the next instruction. -/
def labelsOf : Nat → List Line → Labels
  | _, [] => []
  | p, l :: ls =>
    let rest := labelsOf (if l.statement.isEmpty then p else p + 1) ls
    match l.label with
    | some name => (name, p) :: rest
    | none => rest

/-- The first label that is defined twice. -/
def duplicateLabel? : Labels → Option Text
  | [] => none
  | (name, _) :: ls => if (ls.lookup name).isSome then some name else duplicateLabel? ls

/-- The words of lines whose first statement has index `p`. -/
def wordsOf (labels : Labels) : Nat → List Line → Except AsmError (List Word)
  | _, [] => .ok []
  | p, l :: ls =>
    if l.statement.isEmpty then wordsOf labels p ls
    else match statementInstr? labels p l.statement with
      | some i =>
        match wordsOf labels (p + 1) ls with
        | .ok ws => .ok (encode i :: ws)
        | .error e => .error e
      | none => .error (.badStatement l.statement)

/-- Assemble a source text whose first instruction is at IMEM index `start` (30_encoding.md R100). -/
def assemble (start : Nat) (source : Text) : Except AsmError (List Word) :=
  let lines := (splitAtChar '\n' source).map lineOf
  match duplicateLabel? (labelsOf start lines) with
  | some name => .error (.duplicateLabel name)
  | none => wordsOf (labelsOf start lines) start lines

end Sys2Proof.Machine
end

