-- ==== Sys2Proof/Safety.lean ====
section
/-! DEFINITION. The terms claims are written in: what an instruction may leave unchanged, what a stop does, which faults an
instruction can raise, the invariant, and what a safe step is. -/

namespace Sys2Proof.Machine

/-! ## What stays unchanged -/

/-- Every element register reads as before. -/
def SameElements (s t : State) : Prop := ∀ i : EReg, t.readE i = s.readE i
/-- Every element register but `d` reads as before. -/
def SameElementsBut (d : EReg) (s t : State) : Prop := ∀ i : EReg, i ≠ d → t.readE i = s.readE i
/-- Every vector register reads as before. -/
def SameVectors (s t : State) : Prop := ∀ i : VReg, t.readV i = s.readV i
/-- Every vector register but `d` reads as before. -/
def SameVectorsBut (d : VReg) (s t : State) : Prop := ∀ i : VReg, i ≠ d → t.readV i = s.readV i
/-- Every DMEM byte reads as before. -/
def SameDmem (s t : State) : Prop := ∀ a : Nat, t.dmemByte a = s.dmemByte a
/-- Every DMEM byte outside the `n` bytes at `addr` reads as before. -/
def SameDmemOutside (addr n : Nat) (s t : State) : Prop :=
  ∀ a : Nat, a < addr ∨ addr + n ≤ a → t.dmemByte a = s.dmemByte a
/-- Every IMEM word reads as before. -/
def SameImem (s t : State) : Prop := ∀ k : Nat, t.imemWord k = s.imemWord k
/-- ENG_STATE, the fault record and `abort_pending` are as before. -/
def SameRunRecord (s t : State) : Prop :=
  t.engState = s.engState ∧ t.cause = s.cause ∧ t.faultPc = s.faultPc ∧ t.faultInstr = s.faultInstr ∧
    t.abortPending = s.abortPending
/-- What no engine cycle writes: the parameters, the interrupt enables, ACCERR, `rst` and the model's own fields. -/
def SameHostSide (s t : State) : Prop :=
  t.params = s.params ∧ t.ieDone = s.ieDone ∧ t.ieFault = s.ieFault ∧ t.accErr = s.accErr ∧ t.rst = s.rst ∧
    t.schedule = s.schedule ∧ t.hostData = s.hostData ∧ t.freeDraws = s.freeDraws

/-! ## What an instruction does, with its frame -/

/-- `E[d] <- x` and the default successor; nothing else changes. -/
def OnlyElement (d : EReg) (x : Element) (s t : State) : Prop :=
  t.readE d = x ∧ SameElementsBut d s t ∧ SameVectors s t ∧ SameDmem s t ∧ SameImem s t ∧ SameRunRecord s t ∧
    SameHostSide s t ∧ t.pc = s.pc + 1#16

/-- `V[d] <- xs` and the default successor; nothing else changes. -/
def OnlyVector (d : VReg) (xs : Poly) (s t : State) : Prop :=
  t.readV d = xs ∧ SameVectorsBut d s t ∧ SameElements s t ∧ SameDmem s t ∧ SameImem s t ∧ SameRunRecord s t ∧
    SameHostSide s t ∧ t.pc = s.pc + 1#16

/-- `MemWrite(addr, len(xs), xs)` and the default successor; nothing else changes. -/
def OnlyDmem (addr : Nat) (xs : Poly) (s t : State) : Prop :=
  (∀ (k : Nat) (h : k < xs.length), t.dmemByte (addr + k) = xs[k]) ∧ SameDmemOutside addr xs.length s t ∧
    SameElements s t ∧ SameVectors s t ∧ SameImem s t ∧ SameRunRecord s t ∧ SameHostSide s t ∧ t.pc = s.pc + 1#16

/-- `pc <- p`; nothing else changes. -/
def OnlyPc (p : PcValue) (s t : State) : Prop :=
  SameElements s t ∧ SameVectors s t ∧ SameDmem s t ∧ SameImem s t ∧ SameRunRecord s t ∧ SameHostSide s t ∧ t.pc = p

/-- The stop action `Stop(c, p, w)` field by field; nothing else changes (60_exceptions.md R241). -/
def Stopped (c : Cause) (p : PcValue) (w : Word) (s t : State) : Prop :=
  t.engState = .fault ∧ t.cause = c ∧ t.faultPc = p ∧ t.faultInstr = w ∧ t.abortPending = false ∧ t.pc = s.pc ∧
    SameElements s t ∧ SameVectors s t ∧ SameDmem s t ∧ SameImem s t ∧ SameHostSide s t

/-- The instruction raises the fault `c`: its only effect is the stop action at its own `pc` with its own word. -/
def Raises (c : Cause) (i : Instr) (s : State) : Prop :=
  ∃ t, exec i s = .next t ∧ Stopped c s.pc (encode i) s t

/-- The faults an instruction can raise, in the order it checks them (60_exceptions.md R244). -/
def faultsOf : Instr → List Cause
  | .ginv _ _ => [.zeroInverse]
  | .pmul _ _ _ => [.capacity]
  | .lbasis _ _ _ => [.indexRange, .zeroInverse]
  | .linterp _ _ _ => [.lengthMismatch, .duplicateX]
  | .eld _ _ | .est _ _ | .vst _ _ => [.dmemRange]
  | .vld _ _ _ => [.capacity, .dmemRange]
  | .vget _ _ _ | .vset _ _ _ => [.indexRange]
  | .vclr _ _ => [.capacity]
  | .gadd _ _ _ | .gneg _ _ | .gmul _ _ _ | .peval _ _ _ | .padd _ _ _ | .pscale _ _ _ => []
  | .eli _ _ | .emov _ _ | .einc _ _ | .vmov _ _ | .vlen _ _ => []
  | .halt | .nop | .jmp _ | .beq _ _ _ | .bne _ _ _ => []

/-! ## The invariant -/

/-- What holds at reset and is kept by every step. -/
structure Invariant (s : State) : Prop where
  /-- The parameters are in the ranges of 00_scope.md R8. -/
  params : s.params.legal = true
  /-- A vector register holds at most VLMAX elements (10_state.md R22). -/
  lengths : ∀ i : VReg, (s.readV i).length ≤ s.params.vlmax
  /-- Whenever ENG_STATE is not FAULT, the fault record is clear (10_state.md R33). -/
  record : s.engState ≠ .fault → s.cause = .none ∧ s.faultPc = 0x0000#16 ∧ s.faultInstr = 0x00000000#32
  /-- In FAULT there is a cause (60_exceptions.md R240: NONE is the value whenever ENG_STATE is not FAULT). -/
  named : s.engState = .fault → s.cause ≠ .none
  /-- Whenever ENG_STATE is not RUNNING, `abort_pending` is 0 (10_state.md R33). -/
  noAbort : s.engState ≠ .running → s.abortPending = false
  /-- While `rst` is asserted every register is at its reset value (70_reset_and_hazards.md R280). -/
  heldInReset : s.rst = true → s.resetRegisters = s
  /-- The memories keep their canonical form. -/
  imemWf : Memory.wf s.imem = true
  /-- The memories keep their canonical form. -/
  dmemWf : Memory.wf s.dmem = true
  /-- IMEM has IMEM_WORDS words (10_state.md R40). -/
  imemBound : Memory.below s.imem s.params.imemWords = true
  /-- DMEM has DMEM_BYTES bytes (10_state.md R41). -/
  dmemBound : Memory.below s.dmem s.params.dmemBytes = true

/-- A safe step of the model: it answers a next state (the faults of 60_exceptions.md are next states). -/
def StepsOn (s : State) : Prop := ∃ t, step s = .next t

end Sys2Proof.Machine
end

