-- ==== Sys2Proof/Certificates/Slice0/Obligations.lean ====
section
/-! DEFINITION. The statements for the provers, one definition each, with the terms they share. -/

namespace Sys2Proof.Machine

/-! ## Terms of the statements about encodings -/

/-- A word has the match and mask of a row exactly when it decodes to an instruction of that row, and every other word of
the row's opcode is illegal (30_encoding.md R94, R95, R96). -/
def EncodedAs (m : Mnemonic) (pattern mask : Word) : Prop :=
  ∀ w : Word, ((w &&& mask) = pattern ↔ ∃ i : Instr, decode w = .ok i ∧ i.mnemonic = m) ∧
    (opField w = opField pattern → (w &&& mask) ≠ pattern → ∃ r, decode w = .error r)

/-- The `Z` bits of each row, read off the formats and the table (30_encoding.md R91, R94). -/
def zeroBits : Mnemonic → Word
  | .gadd | .gmul | .peval | .padd | .pmul | .pscale | .lbasis | .linterp | .vget | .vset => 0x00000FFF#32
  | .gneg | .ginv | .emov | .einc | .vmov | .vlen => 0x0000FFFF#32
  | .eli | .vclr => 0x000FFF00#32
  | .eld | .est | .vst => 0x000FF000#32
  | .vld | .beq | .bne => 0x00000000#32
  | .halt | .nop => 0x00FFFFFF#32
  | .jmp => 0x00FF0000#32

/-- The top bit of each kind V field of each row: set, the field holds 8 to 15 (30_encoding.md R92, R94). -/
def vectorTopBits : Mnemonic → Word
  | .padd | .pmul | .linterp => 0x00888000#32
  | .pscale | .lbasis | .vmov => 0x00880000#32
  | .peval | .vlen | .vget => 0x00080000#32
  | .vld | .vst | .vset | .vclr => 0x00800000#32
  | .gadd | .gneg | .gmul | .ginv | .eli | .emov | .einc | .eld | .est => 0x00000000#32
  | .halt | .nop | .jmp | .beq | .bne => 0x00000000#32

/-- The `op` values that 30_encoding.md R96 (1) lists as reserved. -/
def ReservedOp (b : BitVec 8) : Prop :=
  b = 0x00#8 ∨ (0x06#8 ≤ b ∧ b ≤ 0x0F#8) ∨ (0x14#8 ≤ b ∧ b ≤ 0x1F#8) ∨ (0x24#8 ≤ b ∧ b ≤ 0x2F#8) ∨
    (0x32#8 ≤ b ∧ b ≤ 0x3F#8) ∨ (0x45#8 ≤ b ∧ b ≤ 0x47#8) ∨ 0x4F#8 ≤ b

/-! ## Terms of the statements about what an instruction reads and writes -/

/-- The element registers an instruction names as sources. -/
def sourceElements : Instr → List EReg
  | .gadd _ a b | .gmul _ a b | .beq a b _ | .bne a b _ => [a, b]
  | .gneg _ a | .ginv _ a | .emov _ a | .einc _ a => [a]
  | .peval _ _ b | .pscale _ _ b | .lbasis _ _ b | .vget _ _ b => [b]
  | .vset _ a b => [a, b]
  | .est r _ => [r]
  | .padd _ _ _ | .pmul _ _ _ | .linterp _ _ _ | .eli _ _ | .eld _ _ | .vld _ _ _ | .vst _ _ | .vmov _ _ | .vlen _ _ => []
  | .vclr _ _ | .halt | .nop | .jmp _ => []

/-- The vector registers an instruction names as sources. -/
def sourceVectors : Instr → List VReg
  | .padd _ a b | .pmul _ a b | .linterp _ a b => [a, b]
  | .peval _ a _ | .pscale _ a _ | .lbasis _ a _ | .vmov _ a | .vlen _ a | .vget _ a _ => [a]
  | .vset d _ _ => [d]
  | .vst r _ => [r]
  | .gadd _ _ _ | .gneg _ _ | .gmul _ _ _ | .ginv _ _ | .eli _ _ | .emov _ _ | .einc _ _ | .eld _ _ | .est _ _ => []
  | .vld _ _ _ | .vclr _ _ | .halt | .nop | .jmp _ | .beq _ _ _ | .bne _ _ _ => []

/-- The DMEM bytes an instruction reads, address and count. -/
def sourceBytes : Instr → Nat × Nat
  | .eld _ addr => (addr, 1)
  | .vld _ len addr => (addr, len)
  | .gadd _ _ _ | .gneg _ _ | .gmul _ _ _ | .ginv _ _ | .peval _ _ _ | .padd _ _ _ | .pmul _ _ _ | .pscale _ _ _ => (0, 0)
  | .lbasis _ _ _ | .linterp _ _ _ | .eli _ _ | .emov _ _ | .einc _ _ | .est _ _ | .vst _ _ | .vmov _ _ | .vlen _ _ => (0, 0)
  | .vget _ _ _ | .vset _ _ _ | .vclr _ _ | .halt | .nop | .jmp _ | .beq _ _ _ | .bne _ _ _ => (0, 0)

/-- The element register an instruction writes. -/
def destElement : Instr → Option EReg
  | .gadd d _ _ | .gneg d _ | .gmul d _ _ | .ginv d _ | .peval d _ _ | .eli d _ | .emov d _ | .einc d _ => some d
  | .eld r _ => some r
  | .vlen d _ | .vget d _ _ => some d
  | .padd _ _ _ | .pmul _ _ _ | .pscale _ _ _ | .lbasis _ _ _ | .linterp _ _ _ | .est _ _ | .vld _ _ _ | .vst _ _ => none
  | .vmov _ _ | .vset _ _ _ | .vclr _ _ | .halt | .nop | .jmp _ | .beq _ _ _ | .bne _ _ _ => none

/-- The vector register an instruction writes. -/
def destVector : Instr → Option VReg
  | .padd d _ _ | .pmul d _ _ | .pscale d _ _ | .lbasis d _ _ | .linterp d _ _ | .vmov d _ | .vset d _ _ | .vclr d _ => some d
  | .vld r _ _ => some r
  | .gadd _ _ _ | .gneg _ _ | .gmul _ _ _ | .ginv _ _ | .peval _ _ _ | .eli _ _ | .emov _ _ | .einc _ _ => none
  | .eld _ _ | .est _ _ | .vst _ _ | .vlen _ _ | .vget _ _ _ | .halt | .nop | .jmp _ | .beq _ _ _ | .bne _ _ _ => none

/-- The DMEM bytes an instruction stores to, address and count. -/
def destBytes (i : Instr) (s : State) : Nat × Nat :=
  match i with
  | .est _ addr => (addr, 1)
  | .vst r addr => (addr, (s.readV r).length)
  | .gadd _ _ _ | .gneg _ _ | .gmul _ _ _ | .ginv _ _ | .peval _ _ _ | .padd _ _ _ | .pmul _ _ _ | .pscale _ _ _ => (0, 0)
  | .lbasis _ _ _ | .linterp _ _ _ | .eli _ _ | .emov _ _ | .einc _ _ | .eld _ _ | .vld _ _ _ | .vmov _ _ | .vlen _ _ => (0, 0)
  | .vget _ _ _ | .vset _ _ _ | .vclr _ _ | .halt | .nop | .jmp _ | .beq _ _ _ | .bne _ _ _ => (0, 0)

/-- Two states agree on everything the instruction names as a source, on `pc` and on the parameters. -/
def AgreeOnSources (i : Instr) (s u : State) : Prop :=
  (∀ r ∈ sourceElements i, u.readE r = s.readE r) ∧ (∀ r ∈ sourceVectors i, u.readV r = s.readV r) ∧
    (∀ k, k < (sourceBytes i).2 → u.dmemByte ((sourceBytes i).1 + k) = s.dmemByte ((sourceBytes i).1 + k)) ∧
    u.pc = s.pc ∧ u.params = s.params

/-- After the instruction, two states agree on everything it wrote. -/
def AgreeOnResults (i : Instr) (s t u : State) : Prop :=
  (∀ d, destElement i = some d → u.readE d = t.readE d) ∧ (∀ d, destVector i = some d → u.readV d = t.readV d) ∧
    (∀ k, k < (destBytes i s).2 → u.dmemByte ((destBytes i s).1 + k) = t.dmemByte ((destBytes i s).1 + k))

/-! ## Terms of the statements about the host -/

/-- An offset of a locked resource: the PC register, the EREG window, the mapped words of the DMEM and IMEM windows
(20_memory.md R66, R68, R69, R71). -/
def LockedOffset (p : Params) (off : HostOffset) : Prop :=
  (0x00C ≤ off.toNat ∧ off.toNat < 0x010) ∨ (0x100 ≤ off.toNat ∧ off.toNat < 0x140) ∨
    (0x1000 ≤ off.toNat ∧ off.toNat < 0x2000 ∧ 4 * ((off.toNat - 0x1000) / 4) + 3 < p.dmemBytes) ∨
    (0x2000 ≤ off.toNat ∧ (off.toNat - 0x2000) / 4 < p.imemWords)

/-- An unmapped offset (20_memory.md R66, R68, R69). -/
def UnmappedOffset (p : Params) (off : HostOffset) : Prop :=
  (0x020 ≤ off.toNat ∧ off.toNat < 0x100) ∨ (0x140 ≤ off.toNat ∧ off.toNat < 0x1000) ∨
    (0x1000 ≤ off.toNat ∧ off.toNat < 0x2000 ∧ p.dmemBytes ≤ 4 * ((off.toNat - 0x1000) / 4)) ∨
    (0x2000 ≤ off.toNat ∧ p.imemWords ≤ (off.toNat - 0x2000) / 4)

/-- Everything but the registers and memories the host's windows reach is as before. -/
def SameBesidesWindows (s t : State) : Prop := SameVectors s t ∧ SameRunRecord s t ∧ SameHostSide s t

/-- The host may reach the locked resources: `rst` is released and the engine is not RUNNING. -/
def HostMayTouch (s : State) : Prop := s.rst = false ∧ s.engState ≠ .running

/-- What 60_exceptions.md R255 allows ENG_STATE to become in an engine cycle from RUNNING. -/
def CycleOutcome (s t : State) : Prop :=
  (s.abortPending = true → t.engState = .fault ∧ t.cause = .aborted) ∧
  (s.abortPending = false → s.params.imemWords ≤ s.pc.toNat → t.engState = .fault ∧ t.cause = .fetchRange) ∧
  (s.abortPending = false → s.pc.toNat < s.params.imemWords →
    (∀ r, decode (s.imemWord s.pc.toNat) = .error r → t.engState = .fault ∧ t.cause = .illegalInstruction) ∧
    (∀ i, decode (s.imemWord s.pc.toNat) = .ok i →
      (i = .halt → t.engState = .done) ∧
      (i ≠ .halt → t.engState = .running ∨ (t.engState = .fault ∧ t.cause ∈ faultsOf i))))

/-- What 60_exceptions.md R255 allows an engine's turn to make of ENG_STATE. -/
def TurnOutcome (s t : State) : Prop :=
  (s.rst = false ∧ s.engState = .running → CycleOutcome s t) ∧
    (s.rst = true ∨ s.engState ≠ .running → t.engState = s.engState)

/-- What 60_exceptions.md R255 makes of ENG_STATE when the host writes `data` at `off`: START, ACK, or nothing. -/
def WriteOutcome (s t : State) (off : HostOffset) (data : Word) : Prop :=
  t.engState =
    if s.rst = false ∧ s.engState ≠ .running ∧ off.toNat / 4 = 1 ∧ data.getLsbD 0 = true then .running
    else if s.rst = false ∧ s.engState ≠ .running ∧ off.toNat / 4 = 2 ∧ data.getLsbD 31 = true then .idle
    else s.engState

/-! ## Terms of the statements about the arithmetic -/

/-- `x^k` by `gf_mul`, with `x^0 = 0x01` (41_polynomial.md R140). -/
def gfPower (x : Element) : Nat → Element
  | 0 => 0x01#8
  | k + 1 => gfMul (gfPower x k) x

/-- The `gf_add` of `f 0`, ..., `f (n - 1)`. -/
def gfSum (f : Nat → Element) : Nat → Element
  | 0 => 0x00#8
  | n + 1 => gfAdd (gfSum f n) (f n)

/-- Carry-less multiplication of the low `n` bits of `b` with `a` (40_field.md R122). -/
def carrylessProduct (a b : Element) : Nat → BitVec 16
  | 0 => 0#16
  | n + 1 => carrylessProduct a b n ^^^ (if b.getLsbD n then (BitVec.setWidth 16 a) <<< n else 0#16)

/-- Reduction modulo `0x11B` of the bits `8 + n - 1` down to 8 (40_field.md R122). -/
def reduceModulus (w : BitVec 16) : Nat → BitVec 16
  | 0 => w
  | n + 1 => reduceModulus (if w.getLsbD (8 + n) then w ^^^ (0x11B#16 <<< n) else w) n

end Sys2Proof.Machine

open Sys2Proof Sys2Proof.Machine

/-! ## The field arithmetic unit -/

/-- 40_field.md R126, R127: GADD and GNEG, every form, with their frame, corner cases and examples. -/
def Obligations.GaddAndGnegWriteTheirElement : Prop :=
  EncodedAs .gadd 0x10000000#32 0xFF000FFF#32 ∧ EncodedAs .gneg 0x11000000#32 0xFF00FFFF#32 ∧
  decode 0x10312000#32 = .ok (.gadd 3 1 2) ∧ decode 0x11410000#32 = .ok (.gneg 4 1) ∧
  (∀ d a b : EReg, (Pseudo.gsub d a b).expand = .gadd d a b) ∧
  (∀ (d a b : EReg) (s : State), ∃ t, exec (.gadd d a b) s = .next t ∧ OnlyElement d (s.readE a ^^^ s.readE b) s t ∧
    (a = b → t.readE d = 0x00#8) ∧ (s.readE b = 0x00#8 → t.readE d = s.readE a) ∧
    (s.readE a = 0x57#8 → s.readE b = 0x83#8 → t.readE d = 0xD4#8)) ∧
  (∀ (d a : EReg) (s : State), ∃ t, exec (.gneg d a) s = .next t ∧ OnlyElement d (s.readE a) s t ∧
    (d = a → OnlyPc (s.pc + 1#16) s t))

/-- 40_field.md R128: GMUL, every form, with its frame, corner cases and example. -/
def Obligations.GmulWritesTheProduct : Prop :=
  EncodedAs .gmul 0x12000000#32 0xFF000FFF#32 ∧ decode 0x12312000#32 = .ok (.gmul 3 1 2) ∧
  (∀ (d a b : EReg) (s : State), ∃ t, exec (.gmul d a b) s = .next t ∧ OnlyElement d (gfMul (s.readE a) (s.readE b)) s t ∧
    (s.readE a = 0x00#8 ∨ s.readE b = 0x00#8 → t.readE d = 0x00#8) ∧ (s.readE b = 0x01#8 → t.readE d = s.readE a) ∧
    (s.readE a = 0x80#8 → s.readE b = 0x02#8 → t.readE d = 0x1B#8) ∧
    (s.readE a = 0xFF#8 → s.readE b = 0xFF#8 → t.readE d = 0x13#8) ∧
    (s.readE a = 0x57#8 → s.readE b = 0x83#8 → t.readE d = 0xC1#8))

/-- 40_field.md R129: GINV completes on every nonzero element, with its frame, and raises ZERO_INVERSE at zero. -/
def Obligations.GinvWritesTheInverseOrFaults : Prop :=
  EncodedAs .ginv 0x13000000#32 0xFF00FFFF#32 ∧ decode 0x13510000#32 = .ok (.ginv 5 1) ∧
  (∀ (d a : EReg) (s : State), s.readE a ≠ 0x00#8 →
    ∃ x t, gfInv (s.readE a) = some x ∧ exec (.ginv d a) s = .next t ∧ OnlyElement d x s t ∧
      (s.readE a = 0x01#8 → x = 0x01#8) ∧ (s.readE a = 0x02#8 → x = 0x8D#8) ∧ (s.readE a = 0x03#8 → x = 0xF6#8) ∧
      (s.readE a = 0xFF#8 → x = 0x1C#8) ∧ (s.readE a = 0x53#8 → x = 0xCA#8)) ∧
  (∀ (d a : EReg) (s : State), s.readE a = 0x00#8 → Raises .zeroInverse (.ginv d a) s)

/-- 40_field.md R120, R121: `gf_add` and `gf_neg`. -/
def Obligations.FieldAdditionLaws : Prop :=
  (∀ a b : Element, gfAdd a b = a ^^^ b ∧ gfAdd a b = gfAdd b a) ∧ (∀ a : Element, gfAdd a a = 0x00#8) ∧
  (∀ a : Element, gfAdd a 0x00#8 = a) ∧ (∀ a : Element, gfNeg a = a) ∧
  (∀ a b : Element, gfAdd (gfAdd a b) (gfNeg b) = a)

/-- 40_field.md R122: the shift-and-XOR loop is the carry-less product modulo `0x11B`. -/
def Obligations.GfMulIsCarrylessProductModulo : Prop :=
  ∀ a b : Element, gfMul a b = BitVec.setWidth 8 (reduceModulus (carrylessProduct a b 8) 7)

/-- 40_field.md R123: the laws of `gf_mul` and the known vector. -/
def Obligations.FieldMultiplicationLaws : Prop :=
  (∀ a b : Element, gfMul a b = gfMul b a) ∧ (∀ a : Element, gfMul a 0x00#8 = 0x00#8) ∧
  (∀ a b c : Element, gfMul (gfMul a b) c = gfMul a (gfMul b c)) ∧ (∀ a : Element, gfMul a 0x01#8 = a) ∧
  (∀ a b c : Element, gfMul a (gfAdd b c) = gfAdd (gfMul a b) (gfMul a c)) ∧ gfMul 0x57#8 0x83#8 = 0xC1#8

/-- 40_field.md R125: the laws of `gf_inv`, the known vector, and division. -/
def Obligations.FieldInverseLaws : Prop :=
  (∀ a : Element, a ≠ 0x00#8 → ∃ x, gfInv a = some x ∧ gfMul a x = 0x01#8 ∧ gfInv x = some a) ∧
  gfInv 0x00#8 = none ∧ gfInv 0x53#8 = some 0xCA#8 ∧ gfInv 0x01#8 = some 0x01#8 ∧
  (∀ a b x : Element, gfInv b = some x → gfMul (gfMul a x) b = a)

/-! ## The polynomial units -/

/-- 41_polynomial.md R147: PEVAL, every form, with its frame, corner cases and example. -/
def Obligations.PevalWritesTheValue : Prop :=
  EncodedAs .peval 0x20000000#32 0xFF080FFF#32 ∧ decode 0x20301000#32 = .ok (.peval 3 0 1) ∧
  (∀ (d : EReg) (a : VReg) (b : EReg) (s : State), ∃ t, exec (.peval d a b) s = .next t ∧
    OnlyElement d (polyEval (s.readV a) (s.readE b)) s t ∧ (s.readV a = [] → t.readE d = 0x00#8) ∧
    (∀ c p, s.readV a = c :: p → s.readE b = 0x00#8 → t.readE d = c) ∧
    (∀ p n, s.readV a = p ++ List.replicate n 0x00#8 → t.readE d = polyEval p (s.readE b)) ∧
    (s.readV a = [0x03#8, 0x05#8, 0x07#8] → s.readE b = 0x02#8 → t.readE d = 0x15#8))

/-- 41_polynomial.md R148, R150: PADD and PSCALE, every form, with their frame, corner cases and examples. -/
def Obligations.PaddAndPscaleWriteTheirPolynomial : Prop :=
  EncodedAs .padd 0x21000000#32 0xFF888FFF#32 ∧ EncodedAs .pscale 0x23000000#32 0xFF880FFF#32 ∧
  decode 0x21201000#32 = .ok (.padd 2 0 1) ∧ decode 0x23101000#32 = .ok (.pscale 1 0 1) ∧
  (∀ d a b : VReg, (Pseudo.psub d a b).expand = .padd d a b) ∧
  (∀ (d a b : VReg) (s : State), ∃ t, exec (.padd d a b) s = .next t ∧
    OnlyVector d (polyAdd (s.readV a) (s.readV b)) s t ∧
    (s.readV a = s.readV b → t.readV d = List.replicate (s.readV a).length 0x00#8) ∧
    (s.readV a = [] → t.readV d = s.readV b) ∧
    (s.readV b = [] → t.readV d = s.readV a) ∧
    (s.readV a = [0x01#8, 0x02#8, 0x03#8] → s.readV b = [0x04#8] → t.readV d = [0x05#8, 0x02#8, 0x03#8])) ∧
  (∀ (d a : VReg) (b : EReg) (s : State), ∃ t, exec (.pscale d a b) s = .next t ∧
    OnlyVector d (polyScale (s.readV a) (s.readE b)) s t ∧
    (s.readE b = 0x00#8 → t.readV d = List.replicate (s.readV a).length 0x00#8) ∧
    (s.readE b = 0x01#8 → t.readV d = s.readV a) ∧ (s.readV a = [] → t.readV d = []) ∧
    (s.readV a = [0x01#8, 0x02#8, 0x03#8] → s.readE b = 0x02#8 → t.readV d = [0x02#8, 0x04#8, 0x06#8]))

/-- 41_polynomial.md R149: PMUL completes when an operand is empty or the product fits, with its frame, and raises CAPACITY
otherwise. -/
def Obligations.PmulWritesTheProductOrFaults : Prop :=
  EncodedAs .pmul 0x22000000#32 0xFF888FFF#32 ∧ decode 0x22201000#32 = .ok (.pmul 2 0 1) ∧
  (∀ (d a b : VReg) (s : State),
    (s.readV a = [] ∨ s.readV b = [] ∨ (s.readV a).length + (s.readV b).length - 1 ≤ s.params.vlmax) →
    ∃ t, exec (.pmul d a b) s = .next t ∧ OnlyVector d (polyMul (s.readV a) (s.readV b)) s t ∧
      (s.readV a = [] ∨ s.readV b = [] → t.readV d = []) ∧
      (s.readV a ≠ [] → s.readV b ≠ [] → (t.readV d).length = (s.readV a).length + (s.readV b).length - 1) ∧
      (s.readV a = [0x57#8, 0x00#8] → s.readV b = [0x83#8] → t.readV d = [0xC1#8, 0x00#8]) ∧
      (s.readV a = [0x01#8, 0x01#8] → s.readV b = [0x02#8, 0x01#8] → t.readV d = [0x02#8, 0x03#8, 0x01#8])) ∧
  (∀ (d a b : VReg) (s : State), s.readV a ≠ [] → s.readV b ≠ [] →
    s.params.vlmax < (s.readV a).length + (s.readV b).length - 1 → Raises .capacity (.pmul d a b) s)

/-- 41_polynomial.md R140: Horner's value is the sum of the coefficients times the powers of the point. -/
def Obligations.PolyEvalIsThePowerSum : Prop :=
  (∀ (p : Poly) (x : Element), polyEval p x = gfSum (fun k => gfMul (coeff p k) (gfPower x k)) p.length) ∧
  (∀ x : Element, polyEval [] x = 0x00#8) ∧
  (∀ (p : Poly) (c x : Element), polyEval (p ++ [c]) x = gfAdd (polyEval p x) (gfMul c (gfPower x p.length)))

/-- 41_polynomial.md R141, R143: the lengths and coefficients of `poly_add` and `poly_scale`. -/
def Obligations.PolyAddAndScaleByCoefficient : Prop :=
  (∀ p q : Poly, (polyAdd p q).length = max p.length q.length) ∧
  (∀ (p q : Poly) (k : Nat), k < max p.length q.length → (polyAdd p q)[k]? =
    some ((if k < p.length then p.getD k 0x00#8 else 0x00#8) ^^^ (if k < q.length then q.getD k 0x00#8 else 0x00#8))) ∧
  (∀ (p : Poly) (x : Element), (polyScale p x).length = p.length) ∧
  (∀ (p : Poly) (x : Element) (k : Nat) (h : k < p.length), (polyScale p x)[k]? = some (gfMul p[k] x)) ∧
  (∀ p : Poly, polyScale p 0x00#8 = List.replicate p.length 0x00#8)

/-- 41_polynomial.md R142: `poly_mul` is the full convolution. -/
def Obligations.PolyMulIsTheConvolution : Prop :=
  (∀ p : Poly, polyMul p [] = [] ∧ polyMul [] p = []) ∧
  (∀ p q : Poly, p ≠ [] → q ≠ [] →
    (polyMul p q).length = p.length + q.length - 1 ∧
    ∀ k, k < p.length + q.length - 1 → (polyMul p q)[k]? =
      some (gfSum (fun i => gfSum (fun j => if i + j = k then gfMul (coeff p i) (coeff q j) else 0x00#8) q.length) p.length))

/-- 41_polynomial.md R144: the laws of the polynomial functions. -/
def Obligations.PolynomialRingLaws : Prop :=
  (∀ p q : Poly, polyAdd p q = polyAdd q p) ∧ (∀ p q r : Poly, polyAdd (polyAdd p q) r = polyAdd p (polyAdd q r)) ∧
  (∀ p : Poly, polyAdd p [] = p) ∧
  (∀ (p : Poly) (k : Nat), polyAdd p (List.replicate k 0x00#8) = p ++ List.replicate (k - p.length) 0x00#8) ∧
  (∀ p q : Poly, p ≠ [] → q ≠ [] → (polyMul p q).length = p.length + q.length - 1) ∧
  (∀ (p q : Poly) (x : Element), polyEval (polyAdd p q) x = gfAdd (polyEval p x) (polyEval q x)) ∧
  (∀ (p q : Poly) (x : Element), polyEval (polyMul p q) x = gfMul (polyEval p x) (polyEval q x)) ∧
  (∀ (p : Poly) (c x : Element), polyEval (polyScale p c) x = gfMul c (polyEval p x)) ∧
  (∀ p q : Poly, polyMul p q = polyMul q p)

/-- 41_polynomial.md R146, 42_lagrange.md R164: which results fit a vector register by themselves, and CAPACITY for PMUL
writes nothing. -/
def Obligations.ResultsFitVectorRegisters : Prop :=
  ∀ s : State, (∀ r : VReg, (s.readV r).length ≤ s.params.vlmax) →
    (∀ a b : VReg, (polyAdd (s.readV a) (s.readV b)).length ≤ s.params.vlmax) ∧
    (∀ (a : VReg) (x : Element), (polyScale (s.readV a) x).length ≤ s.params.vlmax) ∧
    (∀ (a : VReg) (i : Nat) (l : Poly), i < (s.readV a).length → lagrangeBasis i (s.readV a) = .ok l →
      l.length ≤ s.params.vlmax) ∧
    (∀ (a b : VReg) (r : Poly), lagrangeInterp (s.readV a) (s.readV b) = .ok r → r.length ≤ s.params.vlmax) ∧
    (∀ d a b : VReg, s.params.vlmax < (polyMul (s.readV a) (s.readV b)).length → Raises .capacity (.pmul d a b) s) ∧
    (∀ (d : VReg) (len addr : Nat), s.params.vlmax < len →
      Raises .capacity (.vld d len addr) s ∧ Raises .capacity (.vclr d len) s)

/-! ## The Lagrange units -/

/-- 42_lagrange.md R163: LBASIS completes on an index in range whose point is not repeated, with its frame, and raises
INDEX_RANGE, then ZERO_INVERSE, otherwise. -/
def Obligations.LbasisWritesTheBasisOrFaults : Prop :=
  EncodedAs .lbasis 0x30000000#32 0xFF880FFF#32 ∧ decode 0x30201000#32 = .ok (.lbasis 2 0 1) ∧
  (∀ (d a : VReg) (b : EReg) (s : State), (s.readE b).toNat < (s.readV a).length →
    (∀ j, j < (s.readV a).length → j ≠ (s.readE b).toNat →
      coeff (s.readV a) j ≠ coeff (s.readV a) (s.readE b).toNat) →
    ∃ l t, lagrangeBasis (s.readE b).toNat (s.readV a) = .ok l ∧ exec (.lbasis d a b) s = .next t ∧ OnlyVector d l s t ∧
      ((s.readV a).length = 1 → l = [0x01#8]) ∧
      (s.readV a = [0x01#8, 0x02#8, 0x01#8] → s.readE b = 0x01#8 → l = [0x52#8, 0x00#8, 0x52#8]) ∧
      (s.readV a = [0x00#8, 0x01#8] → s.readE b = 0x00#8 → l = [0x01#8, 0x01#8]) ∧
      (s.readV a = [0x01#8, 0x02#8, 0x03#8] → s.readE b = 0x00#8 → l = [0x01#8, 0x7B#8, 0x7B#8])) ∧
  (∀ (d a : VReg) (b : EReg) (s : State), (s.readV a).length ≤ (s.readE b).toNat →
    Raises .indexRange (.lbasis d a b) s) ∧
  (∀ (d a : VReg) (b : EReg) (s : State) (j : Nat), (s.readE b).toNat < (s.readV a).length → j < (s.readV a).length →
    j ≠ (s.readE b).toNat → coeff (s.readV a) j = coeff (s.readV a) (s.readE b).toNat →
    Raises .zeroInverse (.lbasis d a b) s)

/-- 42_lagrange.md R164: LINTERP completes on equally long operands with distinct points, with its frame, and raises
LENGTH_MISMATCH, then DUPLICATE_X, otherwise. -/
def Obligations.LinterpWritesTheInterpolantOrFaults : Prop :=
  EncodedAs .linterp 0x31000000#32 0xFF888FFF#32 ∧ decode 0x31201000#32 = .ok (.linterp 2 0 1) ∧
  (∀ (d a b : VReg) (s : State), (s.readV a).length = (s.readV b).length → (s.readV a).Nodup →
    ∃ r t, lagrangeInterp (s.readV a) (s.readV b) = .ok r ∧ exec (.linterp d a b) s = .next t ∧ OnlyVector d r s t ∧
      (s.readV a = [] → r = []) ∧ (∀ y, s.readV b = [y] → r = [y]) ∧
      (a = b → ∀ n, (s.readV a).length = n + 2 → r = 0x00#8 :: 0x01#8 :: List.replicate n 0x00#8) ∧
      (s.readV a = [0x01#8, 0x02#8, 0x03#8] → s.readV b = [0x05#8, 0x09#8, 0x11#8] →
        r = [0x1D#8, 0x16#8, 0x0E#8])) ∧
  [0x01#8, 0x02#8, 0x03#8].map (polyEval [0x1D#8, 0x16#8, 0x0E#8]) = [0x05#8, 0x09#8, 0x11#8] ∧
  (∀ (d a b : VReg) (s : State), (s.readV a).length ≠ (s.readV b).length → Raises .lengthMismatch (.linterp d a b) s) ∧
  (∀ (d a b : VReg) (s : State), (s.readV a).length = (s.readV b).length → ¬ (s.readV a).Nodup →
    Raises .duplicateX (.linterp d a b) s)

/-- 42_lagrange.md R160, R162: a basis polynomial has the length of the sample set, is 1 at its own point and 0 at every
other, has a nonzero top coefficient, and fails exactly when its own point is repeated. -/
def Obligations.LagrangeBasisSelectsItsPoint : Prop :=
  ∀ (i : Nat) (xs : Poly), i < xs.length →
    ((∃ c, lagrangeBasis i xs = .error c) ↔ ∃ j, j < xs.length ∧ j ≠ i ∧ coeff xs j = coeff xs i) ∧
    (∀ c, lagrangeBasis i xs = .error c → c = .zeroInverse) ∧
    (∀ l, lagrangeBasis i xs = .ok l → l.length = xs.length ∧ polyEval l (coeff xs i) = 0x01#8 ∧
      (∀ j, j < xs.length → j ≠ i → polyEval l (coeff xs j) = 0x00#8) ∧ coeff l (xs.length - 1) ≠ 0x00#8)

/-- 42_lagrange.md R161, R162: interpolation of equally long sequences with distinct points yields a sequence of the same
length that takes every sample value at its point; otherwise it fails with LENGTH_MISMATCH, then DUPLICATE_X. -/
def Obligations.InterpolantPassesThroughThePoints : Prop :=
  ∀ xs ys : Poly,
    (xs.length ≠ ys.length → lagrangeInterp xs ys = .error .lengthMismatch) ∧
    (xs.length = ys.length → ¬ xs.Nodup → lagrangeInterp xs ys = .error .duplicateX) ∧
    (xs.length = ys.length → xs.Nodup → ∃ r, lagrangeInterp xs ys = .ok r ∧ r.length = xs.length ∧
      ∀ k, k < xs.length → polyEval r (coeff xs k) = coeff ys k)

/-- 42_lagrange.md R162: the interpolant is the only sequence of its length that passes through the points. -/
def Obligations.InterpolantIsUnique : Prop :=
  ∀ xs ys r q : Poly, lagrangeInterp xs ys = .ok r → q.length = xs.length →
    (∀ k, k < xs.length → polyEval q (coeff xs k) = coeff ys k) → q = r

/-! ## Data movement -/

/-- 43_data_movement.md R181, R182, R183: ELI, EMOV and EINC, every form, with their frame, corner cases and examples. -/
def Obligations.EliEmovEincWriteTheirElement : Prop :=
  EncodedAs .eli 0x40000000#32 0xFF0FFF00#32 ∧ EncodedAs .emov 0x41000000#32 0xFF00FFFF#32 ∧
  EncodedAs .einc 0x42000000#32 0xFF00FFFF#32 ∧ decode 0x40100057#32 = .ok (.eli 1 0x57#8) ∧
  decode 0x41210000#32 = .ok (.emov 2 1) ∧ decode 0x42110000#32 = .ok (.einc 1 1) ∧
  (∀ d : EReg, (Pseudo.eclr d).expand = .eli d 0x00#8) ∧ gfAdd 0x01#8 0x01#8 = 0x00#8 ∧
  (∀ (d : EReg) (x : Element) (s : State), ∃ t, exec (.eli d x) s = .next t ∧ OnlyElement d x s t) ∧
  (∀ (d a : EReg) (s : State), ∃ t, exec (.emov d a) s = .next t ∧ OnlyElement d (s.readE a) s t ∧
    (d = a → OnlyPc (s.pc + 1#16) s t)) ∧
  (∀ (d a : EReg) (s : State), ∃ t, exec (.einc d a) s = .next t ∧ OnlyElement d (t.readE d) s t ∧
    (t.readE d).toNat = ((s.readE a).toNat + 1) % 256 ∧ (s.readE a = 0xFF#8 → t.readE d = 0x00#8) ∧
    (s.readE a = 0x01#8 → t.readE d = 0x02#8) ∧ (s.readE a = 0x02#8 → t.readE d = 0x03#8))

/-- 43_data_movement.md R184, R185: ELD and EST complete on an address below DMEM_BYTES, with their frame, and raise
DMEM_RANGE elsewhere. -/
def Obligations.EldAndEstMoveOneByte : Prop :=
  EncodedAs .eld 0x43000000#32 0xFF0FF000#32 ∧ EncodedAs .est 0x44000000#32 0xFF0FF000#32 ∧
  decode 0x43100000#32 = .ok (.eld 1 0x000) ∧ decode 0x44300010#32 = .ok (.est 3 0x010) ∧
  (∀ (r : EReg) (addr : Nat) (s : State), addr < s.params.dmemBytes →
    (∃ t, exec (.eld r addr) s = .next t ∧ OnlyElement r (s.dmemByte addr) s t) ∧
    (∃ t, exec (.est r addr) s = .next t ∧ OnlyDmem addr [s.readE r] s t)) ∧
  (∀ (r : EReg) (addr : Nat) (s : State), s.params.dmemBytes ≤ addr →
    Raises .dmemRange (.eld r addr) s ∧ Raises .dmemRange (.est r addr) s)

/-- 43_data_movement.md R186: VLD completes when the length and the range fit, with its frame, and raises CAPACITY, then
DMEM_RANGE, otherwise. -/
def Obligations.VldLoadsTheSequenceOrFaults : Prop :=
  EncodedAs .vld 0x48000000#32 0xFF800000#32 ∧ decode 0x48003100#32 = .ok (.vld 0 3 0x100) ∧
  (∀ (r : VReg) (len addr : Nat) (s : State), len ≤ s.params.vlmax → addr + len ≤ s.params.dmemBytes →
    ∃ t, exec (.vld r len addr) s = .next t ∧ OnlyVector r (t.readV r) s t ∧ (t.readV r).length = len ∧
      (∀ k, k < len → (t.readV r)[k]? = some (s.dmemByte (addr + k))) ∧ (len = 0 → t.readV r = [])) ∧
  (∀ (r : VReg) (len addr : Nat) (s : State), s.params.vlmax < len → Raises .capacity (.vld r len addr) s) ∧
  (∀ (r : VReg) (len addr : Nat) (s : State), len ≤ s.params.vlmax → s.params.dmemBytes < addr + len →
    Raises .dmemRange (.vld r len addr) s)

/-- 43_data_movement.md R187: VST completes when the range fits, with its frame, and raises DMEM_RANGE otherwise. -/
def Obligations.VstStoresTheSequenceOrFaults : Prop :=
  EncodedAs .vst 0x49000000#32 0xFF8FF000#32 ∧ decode 0x49200200#32 = .ok (.vst 2 0x200) ∧
  (∀ (r : VReg) (addr : Nat) (s : State), addr + (s.readV r).length ≤ s.params.dmemBytes →
    ∃ t, exec (.vst r addr) s = .next t ∧ OnlyDmem addr (s.readV r) s t ∧ (s.readV r = [] → SameDmem s t)) ∧
  (∀ (r : VReg) (addr : Nat) (s : State), s.params.dmemBytes < addr + (s.readV r).length →
    Raises .dmemRange (.vst r addr) s)

/-- 43_data_movement.md R188, R192: VMOV, and VCLR, which completes when the length fits and raises CAPACITY otherwise, with
their frame. -/
def Obligations.VmovAndVclrWriteTheirVector : Prop :=
  EncodedAs .vmov 0x4A000000#32 0xFF88FFFF#32 ∧ EncodedAs .vclr 0x4E000000#32 0xFF8FFF00#32 ∧
  decode 0x4A100000#32 = .ok (.vmov 1 0) ∧ decode 0x4E300003#32 = .ok (.vclr 3 3) ∧
  (∀ d a : VReg, (Pseudo.pneg d a).expand = .vmov d a) ∧ (∀ d : VReg, (Pseudo.vempty d).expand = .vclr d 0) ∧
  (∀ (d a : VReg) (s : State), ∃ t, exec (.vmov d a) s = .next t ∧ OnlyVector d (s.readV a) s t) ∧
  (∀ (d : VReg) (len : Nat) (s : State), len ≤ s.params.vlmax →
    ∃ t, exec (.vclr d len) s = .next t ∧ OnlyVector d (List.replicate len 0x00#8) s t ∧ (len = 0 → t.readV d = [])) ∧
  (∀ (d : VReg) (len : Nat) (s : State), s.params.vlmax < len → Raises .capacity (.vclr d len) s)

/-- 43_data_movement.md R189, R190: VLEN, and VGET, which completes on an index below the length and raises INDEX_RANGE
otherwise, with their frame. -/
def Obligations.VlenAndVgetReadTheVector : Prop :=
  EncodedAs .vlen 0x4B000000#32 0xFF08FFFF#32 ∧ EncodedAs .vget 0x4C000000#32 0xFF080FFF#32 ∧
  decode 0x4B100000#32 = .ok (.vlen 1 0) ∧ decode 0x4C201000#32 = .ok (.vget 2 0 1) ∧
  (∀ (d : EReg) (a : VReg) (s : State), (s.readV a).length ≤ 255 →
    ∃ t, exec (.vlen d a) s = .next t ∧ OnlyElement d (t.readE d) s t ∧ (t.readE d).toNat = (s.readV a).length) ∧
  (∀ (d : EReg) (a : VReg) (b : EReg) (s : State), (s.readE b).toNat < (s.readV a).length →
    ∃ x t, (s.readV a)[(s.readE b).toNat]? = some x ∧ exec (.vget d a b) s = .next t ∧ OnlyElement d x s t) ∧
  (∀ (d : EReg) (a : VReg) (b : EReg) (s : State), (s.readV a).length ≤ (s.readE b).toNat →
    Raises .indexRange (.vget d a b) s)

/-- 43_data_movement.md R191: VSET completes on an index below the length, replacing one element, with its frame, and raises
INDEX_RANGE otherwise. -/
def Obligations.VsetReplacesOneElementOrFaults : Prop :=
  EncodedAs .vset 0x4D000000#32 0xFF800FFF#32 ∧ decode 0x4D313000#32 = .ok (.vset 3 1 3) ∧
  (∀ (d : VReg) (a b : EReg) (s : State), (s.readE a).toNat < (s.readV d).length →
    ∃ t, exec (.vset d a b) s = .next t ∧ OnlyVector d (t.readV d) s t ∧ (t.readV d).length = (s.readV d).length ∧
      (t.readV d)[(s.readE a).toNat]? = some (s.readE b) ∧
      (∀ k, k ≠ (s.readE a).toNat → (t.readV d)[k]? = (s.readV d)[k]?)) ∧
  (∀ (d : VReg) (a b : EReg) (s : State), (s.readV d).length ≤ (s.readE a).toNat → Raises .indexRange (.vset d a b) s)

/-- 20_memory.md R60, R78: a sequence stored by VST and loaded by VLD from the same address comes back, element `k` at byte
`addr + k`. -/
def Obligations.StoredSequenceLoadsBack : Prop :=
  ∀ (r d : VReg) (addr : Nat) (s : State), addr + (s.readV r).length ≤ s.params.dmemBytes →
    (s.readV r).length ≤ s.params.vlmax →
    ∃ t u, exec (.vst r addr) s = .next t ∧ exec (.vld d (s.readV r).length addr) t = .next u ∧
      u.readV d = s.readV r ∧ ∀ (k : Nat) (h : k < (s.readV r).length), u.dmemByte (addr + k) = (s.readV r)[k]

/-! ## Control transfer -/

/-- 44_control.md R220, R221: HALT and NOP with their frame; HALT is the only instruction that leaves RUNNING for DONE. -/
def Obligations.HaltEndsTheRunAndNopDoesNothing : Prop :=
  EncodedAs .halt 0x01000000#32 0xFFFFFFFF#32 ∧ EncodedAs .nop 0x02000000#32 0xFFFFFFFF#32 ∧
  decode 0x01000000#32 = .ok .halt ∧ decode 0x02000000#32 = .ok .nop ∧ (∃ r, decode 0x00000000#32 = .error r) ∧
  (∀ s : State, ∃ t, exec .halt s = .next t ∧ t.engState = .done ∧ t.pc = s.pc + 1#16 ∧ t.start.pc = s.pc + 1#16 ∧
    t.irq = s.ieDone ∧ t.cause = s.cause ∧ t.faultPc = s.faultPc ∧ t.faultInstr = s.faultInstr ∧
    (s.abortPending = false → t.abortPending = false) ∧ SameElements s t ∧ SameVectors s t ∧ SameDmem s t ∧ SameImem s t ∧
    SameHostSide s t) ∧
  (∀ (i : Instr) (s t : State), s.engState = .running → exec i s = .next t → t.engState = .done → i = .halt) ∧
  (∀ s : State, ∃ t, exec .nop s = .next t ∧ OnlyPc (s.pc + 1#16) s t)

/-- 44_control.md R222, R219: JMP is relative to its own index, modulo 2^16, and the target is checked by the next fetch
only. -/
def Obligations.JmpIsRelativeToItself : Prop :=
  EncodedAs .jmp 0x03000000#32 0xFFFF0000#32 ∧ decode 0x0300FFFF#32 = .ok (.jmp (-1)) ∧
  decode 0x03000000#32 = .ok (.jmp 0) ∧ (∀ off : Int, (Pseudo.branch off).expand = .jmp off) ∧
  (∀ (off : Int) (s : State), ∃ t, exec (.jmp off) s = .next t ∧ OnlyPc t.pc s t ∧
    (t.pc.toNat : Int) = ((s.pc.toNat : Int) + off) % 65536) ∧
  (∀ s : State, s.abortPending = false → s.pc.toNat < s.params.imemWords → s.imemWord s.pc.toNat = 0x03000000#32 →
    engineCycle s = .next s) ∧
  (∀ (off : Int) (s t : State), s.abortPending = false → exec (.jmp off) s = .next t → s.params.imemWords ≤ t.pc.toNat →
    ∃ u, engineCycle t = .next u ∧ Stopped .fetchRange t.pc 0x00000000#32 t u) ∧
  (∀ s : State, s.pc = 0x0000#16 → s.params.legal = true → ∃ t, exec (.jmp (-1)) s = .next t ∧ t.pc = 0xFFFF#16 ∧
    s.params.imemWords ≤ t.pc.toNat)

/-- 44_control.md R223, R224, R219: BEQ and BNE with their frame. -/
def Obligations.BranchesCompareTwoElements : Prop :=
  EncodedAs .beq 0x04000000#32 0xFF000000#32 ∧ EncodedAs .bne 0x05000000#32 0xFF000000#32 ∧
  decode 0x04120003#32 = .ok (.beq 1 2 3) ∧ decode 0x0510FFFC#32 = .ok (.bne 1 0 (-4)) ∧
  (∀ (a b : EReg) (off : Int) (s : State), ∃ t, exec (.beq a b off) s = .next t ∧ OnlyPc t.pc s t ∧
    (s.readE a = s.readE b → (t.pc.toNat : Int) = ((s.pc.toNat : Int) + off) % 65536) ∧
    (s.readE a ≠ s.readE b → t.pc = s.pc + 1#16) ∧ (off = 1 → t.pc = s.pc + 1#16)) ∧
  (∀ (a b : EReg) (off : Int) (s : State), ∃ t, exec (.bne a b off) s = .next t ∧ OnlyPc t.pc s t ∧
    (s.readE a ≠ s.readE b → (t.pc.toNat : Int) = ((s.pc.toNat : Int) + off) % 65536) ∧
    (s.readE a = s.readE b → t.pc = s.pc + 1#16) ∧ (a = b → t.pc = s.pc + 1#16))

/-- 44_control.md R226: every instruction that completes and is no JMP, taken BEQ or taken BNE advances `pc` by one. -/
def Obligations.OtherInstructionsAdvancePc : Prop :=
  (∀ (i : Instr) (s t : State), s.engState = .running → exec i s = .next t → t.engState ≠ .fault →
    (∀ off, i ≠ .jmp off) → (∀ a b off, i = .beq a b off → s.readE a ≠ s.readE b) →
    (∀ a b off, i = .bne a b off → s.readE a = s.readE b) → t.pc = s.pc + 1#16) ∧
  (∀ s : State, s.params.legal = true → s.pc.toNat = s.params.imemWords - 1 →
    (s.pc + 1#16).toNat = s.params.imemWords) ∧
  (∀ s : State, s.abortPending = false → s.pc.toNat = s.params.imemWords →
    ∃ t, engineCycle s = .next t ∧ Stopped .fetchRange s.pc 0x00000000#32 s t)

/-! ## Encoding -/

/-- 30_encoding.md R91 to R94: decoding the word of a well-formed instruction gives it back. -/
def Obligations.DecodingInvertsEncoding : Prop := ∀ i : Instr, i.wellFormed = true → decode (encode i) = .ok i

/-- 30_encoding.md R95: the decoder follows the opcode map, no two rows match one word, and no bit of a word is lost. -/
def Obligations.DecodingFollowsTheOpcodeMap : Prop :=
  (∀ (w : Word) (m : Mnemonic), m.matches w = true ↔ ∃ i, decode w = .ok i ∧ i.mnemonic = m) ∧
  (∀ (w : Word) (m n : Mnemonic), m.matches w = true → n.matches w = true → m = n) ∧
  (∀ (w : Word) (i : Instr), decode w = .ok i → i.wellFormed = true ∧ encode i = w) ∧
  (∀ w : Word, (∀ m : Mnemonic, m.matches w = false) ↔ ∃ r, decode w = .error r)

/-- 30_encoding.md R96: exactly which words are illegal, and what executing one does. -/
def Obligations.IllegalWordsAreTheReservedOnes : Prop :=
  (∀ w : Word, (∃ r, decode w = .error r) ↔ ReservedOp (opField w) ∨
    ∃ m : Mnemonic, m.op = opField w ∧ ((w &&& zeroBits m) ≠ 0#32 ∨ (w &&& vectorTopBits m) ≠ 0#32)) ∧
  (∃ r, decode 0x00000000#32 = .error r) ∧
  (∀ (s : State) (r : Illegal), s.abortPending = false → s.pc.toNat < s.params.imemWords →
    decode (s.imemWord s.pc.toNat) = .error r →
    ∃ t, engineCycle s = .next t ∧ Stopped .illegalInstruction s.pc (s.imemWord s.pc.toNat) s t)

/-- A few words of 95_test_vectors.md V-EN, of every family, and four illegal ones. -/
def Obligations.SpecWordsDecodeAsListed : Prop :=
  decode 0x10312000#32 = .ok (.gadd 3 1 2) ∧ decode 0x20301000#32 = .ok (.peval 3 0 1) ∧
  decode 0x30201000#32 = .ok (.lbasis 2 0 1) ∧ decode 0x48003100#32 = .ok (.vld 0 3 0x100) ∧
  decode 0x4B900000#32 = .ok (.vlen 9 0) ∧ decode 0x04120003#32 = .ok (.beq 1 2 3) ∧
  (∃ r, decode 0x00000000#32 = .error r) ∧ (∃ r, decode 0x10312001#32 = .error r) ∧
  (∃ r, decode 0x21901000#32 = .error r) ∧ (∃ r, decode 0x03010000#32 = .error r)

/-- 30_encoding.md R103: each pseudo-instruction stands for one instruction, in syntax and in assembled text. -/
def Obligations.PseudoInstructionsExpand : Prop :=
  (∀ d a b : EReg, (Pseudo.gsub d a b).expand = .gadd d a b) ∧ (∀ d a b : VReg, (Pseudo.psub d a b).expand = .padd d a b) ∧
  (∀ d a : VReg, (Pseudo.pneg d a).expand = .vmov d a) ∧ (∀ d : EReg, (Pseudo.eclr d).expand = .eli d 0x00#8) ∧
  (∀ d : VReg, (Pseudo.vempty d).expand = .vclr d 0) ∧ (∀ off : Int, (Pseudo.branch off).expand = .jmp off) ∧
  assemble 0 "ECLR e1".toList = .ok [0x40100000#32] ∧ assemble 0 "vempty v4".toList = .ok [0x4E400000#32]

/-! ## The engine cycle and the step -/

/-- 30_encoding.md R110, 70_reset_and_hazards.md R290: when the word at `pc` decodes to `i`, the engine's step is `exec i`,
whether the engine moves because nothing is scheduled or because the schedule says so. -/
def Obligations.StepRunsTheDecodedInstruction : Prop :=
  ∀ (s : State) (i : Instr), s.params.legal = true → s.rst = false → s.engState = .running → s.abortPending = false →
    s.pc.toNat < s.params.imemWords → decode (s.imemWord s.pc.toNat) = .ok i →
    (s.schedule = [] → step s = exec i s) ∧
    (∀ rest, s.schedule = .engineCycle :: rest → step s = exec i { s with schedule := rest })

/-- 60_exceptions.md R242, with R251 and R271: what the engine's turn does when it executes no instruction. That a step of an
engine at rest answers the same state is the model's reading (log 6). -/
def Obligations.EngineTurnWithoutAnInstruction : Prop :=
  ∀ s : State,
    (s.abortPending = true → ∃ t, engineCycle s = .next t ∧ Stopped .aborted s.pc 0x00000000#32 s t) ∧
    (s.abortPending = false → s.params.imemWords ≤ s.pc.toNat →
      ∃ t, engineCycle s = .next t ∧ Stopped .fetchRange s.pc 0x00000000#32 s t) ∧
    (s.params.legal = true → s.schedule = [] → s.rst = true ∨ s.engState ≠ .running → step s = .next s) ∧
    (s.params.legal = true → s.schedule = [] → s.rst = false → s.engState = .running → step s = engineCycle s)

/-- 60_exceptions.md R241: the stop action, field by field, the `irq` it raises, and that the engine then rests (that a step
then answers the same state is the model's reading, log 6). -/
def Obligations.StopActionIsPrecise : Prop :=
  ∀ (s : State) (c : Cause) (p : PcValue) (w : Word),
    Stopped c p w s (s.stop c p w) ∧ (s.stop c p w).irq = s.ieFault ∧
    (s.params.legal = true → s.schedule = [] → step (s.stop c p w) = .next (s.stop c p w))

/-- 60_exceptions.md R245: when several fault conditions hold, the first of the order is reported; a pending abort is, whatever
the fetch, the decoding or the instruction at `pc` would raise. -/
def Obligations.FirstFaultOfTheOrderIsReported : Prop :=
  (∀ s : State, s.abortPending = true → ∃ t, engineCycle s = .next t ∧ t.cause = .aborted) ∧
  (∀ (s : State) (r : Illegal), s.abortPending = false → s.params.imemWords ≤ s.pc.toNat →
    decode (s.imemWord s.pc.toNat) = .error r → ∃ t, engineCycle s = .next t ∧ t.cause = .fetchRange) ∧
  (∀ (s : State) (i : Instr) (c : Cause), s.engState = .running → Raises c i s → c ∈ faultsOf i) ∧
  (∀ (d a : VReg) (b : EReg) (s : State), (s.readV a).length ≤ (s.readE b).toNat → ¬ (s.readV a).Nodup →
    Raises .indexRange (.lbasis d a b) s) ∧
  (∀ (d a b : VReg) (s : State), (s.readV a).length ≠ (s.readV b).length → ¬ (s.readV a).Nodup →
    Raises .lengthMismatch (.linterp d a b) s) ∧
  (∀ (r : VReg) (len addr : Nat) (s : State), s.params.vlmax < len → s.params.dmemBytes < addr + len →
    Raises .capacity (.vld r len addr) s)

/-- 60_exceptions.md R244, 30_encoding.md R111: from RUNNING an instruction either completes, keeping the fault record and
`abort_pending` (that HALT keeps one that is pending, which no cycle reaches, is the model's reading, log 19), or raises one of
its listed faults, whose stop action is then its whole effect. -/
def Obligations.InstructionsRaiseOnlyTheirFaults : Prop :=
  ∀ (i : Instr) (s : State), s.engState = .running →
    (∃ t, exec i s = .next t ∧ t.engState = (if i = .halt then .done else .running) ∧ t.cause = s.cause ∧
      t.faultPc = s.faultPc ∧ t.faultInstr = s.faultInstr ∧ t.abortPending = s.abortPending) ∨
    (∃ c, c ∈ faultsOf i ∧ exec i s = .next (s.stop c s.pc (encode i)))

/-- 60_exceptions.md R240, R246, and log 4: with legal parameters every step answers a next state, every instruction does in
every state, and only parameters of no GFLE stop the model. -/
def Obligations.EveryStepAnswersANextState : Prop :=
  (∀ s : State, s.params.legal = true → StepsOn s) ∧ (∀ (i : Instr) (s : State), ∃ t, exec i s = .next t) ∧
  (∀ s : State, s.params.legal = false → step s = .fault .parametersOutOfRange)

/-- 10_state.md R40, 20_memory.md R81, 44_control.md R225: no instruction writes IMEM, an interrupt enable, ACCERR or a
parameter, and ENG_STATE changes only by HALT or a fault. -/
def Obligations.InstructionsLeaveTheHostSideAlone : Prop :=
  ∀ (i : Instr) (s t : State), exec i s = .next t →
    t.imem = s.imem ∧ SameHostSide s t ∧ (i ≠ .halt → t.engState = s.engState ∨ t.engState = .fault)

/-- 30_encoding.md R112: an instruction's writes, its `next_pc` and its fault depend only on its word, its named sources,
`pc` and the parameters. -/
def Obligations.ExecutionDependsOnNamedSourcesOnly : Prop :=
  ∀ (i : Instr) (s u t v : State), s.engState = .running → u.engState = .running → AgreeOnSources i s u →
    exec i s = .next t → exec i u = .next v →
    v.engState = t.engState ∧ v.pc = t.pc ∧
    (t.engState = .fault → v.cause = t.cause ∧ v.faultPc = t.faultPc ∧ v.faultInstr = t.faultInstr) ∧
    (t.engState ≠ .fault → AgreeOnResults i s t v)

/-- 60_exceptions.md R255: how ENG_STATE changes, event by event. -/
def Obligations.EngineStateChangesAsTabled : Prop :=
  ∀ s t : State, s.params.legal = true → step s = .next t →
    (s.schedule = [] → TurnOutcome s t) ∧
    (∀ rest, s.schedule = .engineCycle :: rest → TurnOutcome s t) ∧
    (∀ off rest, s.schedule = .hostRead off :: rest → t.engState = s.engState) ∧
    (∀ off data rest, s.schedule = .hostWrite off data :: rest → WriteOutcome s t off data) ∧
    (∀ off drives data rest, s.schedule = .hostWriteNarrow off drives data :: rest →
      WriteOutcome s t off (narrowWord s.freeDraws drives data)) ∧
    (∀ rest, s.schedule = .assertReset :: rest → t.engState = .idle) ∧
    (∀ rest, s.schedule = .releaseReset :: rest → t.engState = s.engState)

/-- 70_reset_and_hazards.md R290, R291 and log 5: a step takes exactly the first event of the schedule, so a finite schedule
runs out and the engine moves. -/
def Obligations.ScheduleIsTakenInOrder : Prop :=
  ∀ s t : State, step s = .next t → t.schedule = s.schedule.tail

/-! ## The invariant -/

/-- 10_state.md R33, R50, with log 1 and log 3: the reset state, and every power-up state with legal parameters and canonical
memories in range, meets the invariant. -/
def Obligations.ResetMeetsTheInvariant : Prop :=
  Invariant State.reset ∧
  (∀ (p : Params) (imem : List (Nat × Word)) (dmem : List Host.Cell), p.legal = true → Memory.wf imem = true →
    Memory.wf dmem = true → Memory.below imem p.imemWords = true → Memory.below dmem p.dmemBytes = true →
    Invariant (State.powerUp p imem dmem))

/-- 10_state.md R22, R33, 60_exceptions.md R240, 70_reset_and_hazards.md R280: every step, of the engine, the host or the
reset input, keeps the invariant. -/
def Obligations.EveryStepKeepsTheInvariant : Prop := ∀ s t : State, Invariant s → step s = .next t → Invariant t

/-! ## The host window -/

/-- 20_memory.md R71: an access to a locked resource while RUNNING reads 0, writes nothing and sets ACCERR. -/
def Obligations.LockedAccessOnlySetsAccErr : Prop :=
  ∀ (s : State) (off : HostOffset) (data : Word), LockedOffset s.params off → s.rst = false →
    (s.engState = .running → s.hostRead off = (0x00000000#32, { s with accErr := true }) ∧
      s.hostWrite off data = { s with accErr := true }) ∧
    (s.engState ≠ .running → s.hostRead off = (s.hostValue (hostTarget s.params off), s) ∧
      s.hostWrite off data = s.hostStore data (hostTarget s.params off))

/-- 20_memory.md R70: an access to an unmapped offset reads 0, writes nothing and sets nothing. -/
def Obligations.UnmappedAccessHasNoEffect : Prop :=
  ∀ (s : State) (off : HostOffset) (data : Word), s.params.legal = true → UnmappedOffset s.params off →
    s.hostRead off = (0x00000000#32, s) ∧ s.hostWrite off data = s

/-- 20_memory.md R67, R68, R69: the EREG, DMEM and IMEM windows, read and written. -/
def Obligations.WindowsReachRegistersAndMemories : Prop :=
  ∀ s : State, HostMayTouch s →
    (∀ (k : EReg) (data : Word),
      s.hostRead (BitVec.ofNat 14 (0x100 + 4 * k.val)) = (BitVec.setWidth 32 (s.readE k), s) ∧
      ∃ t, s.hostWrite (BitVec.ofNat 14 (0x100 + 4 * k.val)) data = t ∧ t.readE k = data.extractLsb' 0 8 ∧
        SameElementsBut k s t ∧ SameDmem s t ∧ SameImem s t ∧ t.pc = s.pc ∧ SameBesidesWindows s t) ∧
    (∀ (k : Nat) (data : Word), k < 1024 → 4 * k + 3 < s.params.dmemBytes →
      (s.hostRead (BitVec.ofNat 14 (0x1000 + 4 * k))).2 = s ∧
      (∀ j, j < 4 → (s.hostRead (BitVec.ofNat 14 (0x1000 + 4 * k))).1.extractLsb' (8 * j) 8 = s.dmemByte (4 * k + j)) ∧
      ∃ t, s.hostWrite (BitVec.ofNat 14 (0x1000 + 4 * k)) data = t ∧
        (∀ j, j < 4 → t.dmemByte (4 * k + j) = data.extractLsb' (8 * j) 8) ∧ SameDmemOutside (4 * k) 4 s t ∧
        SameElements s t ∧ SameImem s t ∧ t.pc = s.pc ∧ SameBesidesWindows s t) ∧
    (∀ (k : Nat) (data : Word), k < 2048 → k < s.params.imemWords →
      s.hostRead (BitVec.ofNat 14 (0x2000 + 4 * k)) = (s.imemWord k, s) ∧
      ∃ t, s.hostWrite (BitVec.ofNat 14 (0x2000 + 4 * k)) data = t ∧ t.imemWord k = data ∧
        (∀ j, j ≠ k → t.imemWord j = s.imemWord j) ∧ SameElements s t ∧ SameDmem s t ∧ t.pc = s.pc ∧
        SameBesidesWindows s t) ∧
    (∀ k : Nat, k < 1024 → s.params.dmemBytes ≤ 4 * k → hostTarget s.params (BitVec.ofNat 14 (0x1000 + 4 * k)) = .unmapped) ∧
    (∀ k : Nat, k < 2048 → s.params.imemWords ≤ k → hostTarget s.params (BitVec.ofNat 14 (0x2000 + 4 * k)) = .unmapped)

/-- 20_memory.md R65: offset bits 1:0 are ignored, and a narrow write stores the whole word, its driven lanes as the host
drove them (but for the model's own draw counter). -/
def Obligations.HostAccessesAreWholeWords : Prop :=
  (∀ (s : State) (o o' : HostOffset) (data : Word), o.toNat / 4 = o'.toNat / 4 →
    s.hostRead o = s.hostRead o' ∧ s.hostWrite o data = s.hostWrite o' data) ∧
  (∀ (s : State) (off : HostOffset) (drives : BitVec 4) (data : Word), ∃ word : Word,
    (∀ j, j < 4 → drives.getLsbD j = true → word.extractLsb' (8 * j) 8 = data.extractLsb' (8 * j) 8) ∧
    { s.hostWriteNarrow off drives data with freeDraws := s.freeDraws } = s.hostWrite off word ∧
    (drives = 0xF#4 → word = data))

/-- 10_state.md R34, R37, R38, R39: ID, PC, FAULT_PC, FAULT_INSTR, CONFIG0 and CONFIG1, read and written; no step from any
state changes a parameter. -/
def Obligations.FixedRegistersReadTheirFields : Prop :=
  (∀ s t : State, step s = .next t → t.params = s.params) ∧
  (∀ (p : Params) (imem : List (Nat × Word)) (dmem : List Host.Cell), (State.powerUp p imem dmem).pc = 0x0000#16 ∧
    (State.powerUp p imem dmem).faultPc = 0x0000#16 ∧ (State.powerUp p imem dmem).faultInstr = 0x00000000#32) ∧
  ∀ s : State, s.rst = false →
    s.hostRead 0x0000#14 = (0x47460100#32, s) ∧
    (s.engState ≠ .running → s.hostRead 0x000C#14 = (BitVec.setWidth 32 s.pc, s) ∧
      ∀ data : Word, s.hostWrite 0x000C#14 data = { s with pc := data.extractLsb' 0 16 }) ∧
    (s.engState = .running → s.hostRead 0x000C#14 = (0x00000000#32, { s with accErr := true }) ∧
      ∀ data : Word, s.hostWrite 0x000C#14 data = { s with accErr := true }) ∧
    s.hostRead 0x0010#14 = (BitVec.setWidth 32 s.faultPc, s) ∧ s.hostRead 0x0014#14 = (s.faultInstr, s) ∧
    (∃ w, s.hostRead 0x0018#14 = (w, s) ∧ w.extractLsb' 0 8 = BitVec.ofNat 8 s.params.vlmax ∧
      w.extractLsb' 8 8 = 0x00#8 ∧ w.extractLsb' 16 16 = BitVec.ofNat 16 s.params.imemWords) ∧
    (∃ w, s.hostRead 0x001C#14 = (w, s) ∧ w.extractLsb' 0 16 = BitVec.ofNat 16 s.params.dmemBytes ∧
      w.extractLsb' 16 16 = 0x0000#16) ∧
    (∀ data : Word, s.hostWrite 0x0000#14 data = s ∧ s.hostWrite 0x0010#14 data = s ∧ s.hostWrite 0x0014#14 data = s ∧
      s.hostWrite 0x0018#14 data = s ∧ s.hostWrite 0x001C#14 data = s)

/-- 10_state.md R35, 60_exceptions.md R250, R251, R253: CTRL reads its enables, and a write stores them and then takes START
when not RUNNING or ABORT when RUNNING, at most one. -/
def Obligations.CtrlStartsAndAborts : Prop :=
  ∀ (s : State) (data : Word), s.rst = false →
    (∃ w, s.hostRead 0x0004#14 = (w, s) ∧ w.getLsbD 0 = false ∧ w.getLsbD 1 = false ∧ w.getLsbD 2 = s.ieDone ∧
      w.getLsbD 3 = s.ieFault ∧ ∀ k, 4 ≤ k → w.getLsbD k = false) ∧
    (s.engState ≠ .running → data.getLsbD 0 = true → s.hostWrite 0x0004#14 data =
      { s with ieDone := data.getLsbD 2, ieFault := data.getLsbD 3, engState := .running, cause := .none,
               faultPc := 0x0000#16, faultInstr := 0x00000000#32, accErr := false, abortPending := false }) ∧
    (s.engState ≠ .running → data.getLsbD 0 = false → s.hostWrite 0x0004#14 data =
      { s with ieDone := data.getLsbD 2, ieFault := data.getLsbD 3 }) ∧
    (s.engState = .running → data.getLsbD 1 = true → s.hostWrite 0x0004#14 data =
      { s with ieDone := data.getLsbD 2, ieFault := data.getLsbD 3, abortPending := true }) ∧
    (s.engState = .running → data.getLsbD 1 = false → s.hostWrite 0x0004#14 data =
      { s with ieDone := data.getLsbD 2, ieFault := data.getLsbD 3 }) ∧
    (∀ (p : Params) (imem : List (Nat × Word)) (dmem : List Host.Cell), (State.powerUp p imem dmem).ctrlWord = 0x00000000#32)

/-- 10_state.md R36, 60_exceptions.md R252: STATUS reads its fields, and a write with bit 31 set acknowledges when not
RUNNING and does nothing otherwise. The numbers of STATE are those of 10_state.md R27, and of CAUSE those of the table of
60_exceptions.md R240. -/
def Obligations.StatusReadsAndAcknowledges : Prop :=
  (EngState.code .idle = 0#2 ∧ EngState.code .running = 1#2 ∧ EngState.code .done = 2#2 ∧ EngState.code .fault = 3#2) ∧
  (Cause.code .none = 0x00#8 ∧ Cause.code .illegalInstruction = 0x01#8 ∧ Cause.code .fetchRange = 0x02#8 ∧
    Cause.code .dmemRange = 0x03#8 ∧ Cause.code .indexRange = 0x04#8 ∧ Cause.code .lengthMismatch = 0x05#8 ∧
    Cause.code .capacity = 0x06#8 ∧ Cause.code .zeroInverse = 0x07#8 ∧ Cause.code .duplicateX = 0x08#8 ∧
    Cause.code .aborted = 0x09#8) ∧
  ∀ (s : State) (data : Word), s.rst = false →
    (∃ w, s.hostRead 0x0008#14 = (w, s) ∧ w.extractLsb' 0 2 = s.engState.code ∧ w.getLsbD 2 = s.irq ∧
      w.getLsbD 3 = s.accErr ∧ w.getLsbD 4 = s.abortPending ∧ w.extractLsb' 5 3 = 0#3 ∧ w.extractLsb' 8 8 = s.cause.code ∧
      w.extractLsb' 16 16 = 0x0000#16) ∧
    (s.engState ≠ .running → data.getLsbD 31 = true → s.hostWrite 0x0008#14 data =
      { s with engState := .idle, cause := .none, faultPc := 0x0000#16, faultInstr := 0x00000000#32, accErr := false }) ∧
    (s.engState = .running → s.hostWrite 0x0008#14 data = s) ∧
    (data.getLsbD 31 = false → s.hostWrite 0x0008#14 data = s) ∧
    (∀ (p : Params) (imem : List (Nat × Word)) (dmem : List Host.Cell), (State.powerUp p imem dmem).statusWord = 0x00000000#32)

/-- 60_exceptions.md R260: the level of `irq`, what STATUS.IRQ reads, and the events that set and clear it. -/
def Obligations.IrqIsALevelOfTheState : Prop :=
  ∀ s : State,
    (s.irq = true ↔ (s.engState = .done ∧ s.ieDone = true) ∨ (s.engState = .fault ∧ s.ieFault = true)) ∧
    (s.rst = false → (s.hostRead 0x0008#14).1.getLsbD 2 = s.irq) ∧
    (∃ t, exec .halt s = .next t ∧ t.irq = s.ieDone) ∧
    (∀ c p w, (s.stop c p w).irq = s.ieFault) ∧ s.acknowledge.irq = false ∧ s.start.irq = false ∧
    (assertReset s).irq = false ∧
    (∀ data : Word, s.rst = false → data.getLsbD 0 = false → (s.hostWrite 0x0004#14 data).irq =
      ((s.engState == .done && data.getLsbD 2) || (s.engState == .fault && data.getLsbD 3)))

/-! ## Reset -/

/-- 70_reset_and_hazards.md R280, R281, 10_state.md R50: what `rst` does, what holds while it is asserted, and what it
leaves alone. -/
def Obligations.ResetSetsRegistersAndKeepsMemories : Prop :=
  (∀ (s t : State) (rest : List Event), s.params.legal = true → s.schedule = .assertReset :: rest → step s = .next t →
    (∀ i, t.readE i = 0x00#8) ∧ (∀ i, t.readV i = []) ∧ t.pc = 0x0000#16 ∧ t.engState = .idle ∧ t.cause = .none ∧
    t.faultPc = 0x0000#16 ∧ t.faultInstr = 0x00000000#32 ∧ t.ieDone = false ∧ t.ieFault = false ∧ t.accErr = false ∧
    t.abortPending = false ∧ t.irq = false ∧ t.rst = true ∧ t.imem = s.imem ∧ t.dmem = s.dmem ∧ t.params = s.params) ∧
  (∀ (s : State) (off : HostOffset) (data : Word), s.rst = true →
    s.hostRead off = (0x00000000#32, s) ∧ s.hostWrite off data = s ∧ engineTurn s = .next s) ∧
  (∀ (s t : State) (rest : List Event), s.params.legal = true → s.schedule = .releaseReset :: rest → step s = .next t →
    t.engState = s.engState ∧ t.pc = s.pc ∧ t.rst = false ∧ (t.engState = .idle → engineTurn t = .next t)) ∧
  (∀ (p : Params) (imem : List (Nat × Word)) (dmem : List Host.Cell),
    let s := State.powerUp p imem dmem
    (∀ i, s.readE i = 0x00#8) ∧ (∀ i, s.readV i = []) ∧ s.pc = 0x0000#16 ∧ s.engState = .idle ∧ s.cause = .none ∧
    s.faultPc = 0x0000#16 ∧ s.faultInstr = 0x00000000#32 ∧ s.ieDone = false ∧ s.ieFault = false ∧ s.accErr = false ∧
    s.abortPending = false ∧ s.irq = false ∧ s.imem = imem ∧ s.dmem = dmem ∧ s.params = p)

/-! ## From the schedule to the host access -/

/-- 10_state.md R43, 20_memory.md R65, R73, 70_reset_and_hazards.md R290: a step whose schedule begins with a host access or a
change of `rst` does exactly that, on the state with the rest of the schedule. That the schedule holds these events and that
`hostData` takes the word a read returns are the model's choices (log 5, log 7), as is the draw number (log 8). -/
def Obligations.StepPerformsTheScheduledEvent : Prop :=
  ∀ (s : State) (rest : List Event), s.params.legal = true →
    let u : State := { s with schedule := rest }
    (∀ off, s.schedule = .hostRead off :: rest →
      step s = .next { (u.hostRead off).2 with hostData := (u.hostRead off).1 }) ∧
    (∀ off data, s.schedule = .hostWrite off data :: rest → step s = .next (u.hostWrite off data)) ∧
    (∀ off drives data, s.schedule = .hostWriteNarrow off drives data :: rest →
      step s = .next (u.hostWriteNarrow off drives data)) ∧
    (s.schedule = .assertReset :: rest → step s = .next (assertReset u)) ∧
    (s.schedule = .releaseReset :: rest → step s = .next (releaseReset u)) ∧
    (s.schedule = .engineCycle :: rest → step s = engineTurn u)
end

