-- ==== Sys2Proof/Laws/Memory.lean ====
section
/-! SUPPORT. The laws of the sparse memories: a read after a write, and that every operation keeps the canonical form and
the bound on addresses. -/

namespace Sys2Proof.Machine

variable {n : Nat}

/-! ## A read after an erase, an insert, a write -/

theorem read_erase_same (m : List (Nat × BitVec n)) (a : Nat) : Memory.read (Memory.erase m a) a = Memory.unlisted n := by
  induction m with
  | nil => rfl
  | cons c m ih => by_cases h : c.1 = a <;> simp_all [Memory.erase, Memory.read]

theorem read_erase_ne (m : List (Nat × BitVec n)) (a b : Nat) (h : b ≠ a) :
    Memory.read (Memory.erase m a) b = Memory.read m b := by
  induction m with
  | nil => rfl
  | cons c m ih =>
    by_cases hc : c.1 = a
    · have hb : c.1 ≠ b := fun e => h (e.symm.trans hc)
      simp_all [Memory.erase, Memory.read]
    · by_cases hb : c.1 = b <;> simp_all [Memory.erase, Memory.read]

theorem read_insert_ne (m : List (Nat × BitVec n)) (a b : Nat) (x : BitVec n) (h : b ≠ a) :
    Memory.read (Memory.insert m a x) b = Memory.read m b := by
  induction m with
  | nil => simp [Memory.insert, Memory.read, Ne.symm h]
  | cons c m ih =>
    simp only [Memory.insert]
    split
    · simp [Memory.read, Ne.symm h]
    · by_cases hb : c.1 = b <;> simp_all [Memory.read]

theorem read_insert_same (m : List (Nat × BitVec n)) (a : Nat) (x : BitVec n) (h : ∀ c ∈ m, c.1 ≠ a) :
    Memory.read (Memory.insert m a x) a = x := by
  induction m with
  | nil => simp [Memory.insert, Memory.read]
  | cons c m ih =>
    simp only [Memory.insert]
    split
    · simp [Memory.read]
    · simp_all [Memory.read]

theorem not_mem_erase (m : List (Nat × BitVec n)) (a : Nat) : ∀ c ∈ Memory.erase m a, c.1 ≠ a := by
  simp [Memory.erase]

/-- A read at the written address gives the value written, whatever the memory. -/
@[simp] theorem read_write_same (m : List (Nat × BitVec n)) (a : Nat) (x : BitVec n) :
    Memory.read (Memory.write m a x) a = x := by
  simp only [Memory.write]
  split
  · rw [read_erase_same]; exact Eq.symm ‹_›
  · exact read_insert_same _ _ _ (not_mem_erase m a)

/-- A write leaves every other address alone, whatever the memory. -/
theorem read_write_ne (m : List (Nat × BitVec n)) (a b : Nat) (x : BitVec n) (h : b ≠ a) :
    Memory.read (Memory.write m a x) b = Memory.read m b := by
  simp only [Memory.write]
  split
  · exact read_erase_ne m a b h
  · rw [read_insert_ne _ _ _ _ h, read_erase_ne m a b h]

/-- Everything a write does: the address written, and every other. -/
theorem read_write (m : List (Nat × BitVec n)) (a b : Nat) (x : BitVec n) :
    Memory.read (Memory.write m a x) b = if b = a then x else Memory.read m b := by
  by_cases h : b = a
  · subst h; simp
  · simp [h, read_write_ne]

/-! ## Sequences -/

@[simp] theorem length_readSeq (m : List (Nat × BitVec n)) (a k : Nat) : (Memory.readSeq m a k).length = k := by
  simp [Memory.readSeq]

theorem getElem_readSeq (m : List (Nat × BitVec n)) (a k i : Nat) (h : i < (Memory.readSeq m a k).length) :
    (Memory.readSeq m a k)[i] = Memory.read m (a + i) := by
  simp [Memory.readSeq]

/-- A sequence write leaves every address outside it alone. -/
theorem read_writeSeq_outside (m : List (Nat × BitVec n)) (a : Nat) (xs : List (BitVec n)) (b : Nat)
    (h : b < a ∨ a + xs.length ≤ b) : Memory.read (Memory.writeSeq m a xs) b = Memory.read m b := by
  induction xs generalizing m a with
  | nil => rfl
  | cons x xs ih =>
    simp only [List.length_cons] at h
    rw [Memory.writeSeq, ih _ _ (by omega), read_write_ne _ _ _ _ (by omega)]

/-- A sequence write stores element `k` at `a + k`. -/
theorem read_writeSeq_inside (m : List (Nat × BitVec n)) (a : Nat) (xs : List (BitVec n)) (k : Nat) (h : k < xs.length) :
    Memory.read (Memory.writeSeq m a xs) (a + k) = xs[k] := by
  induction xs generalizing m a k with
  | nil => simp at h
  | cons x xs ih =>
    cases k with
    | zero => rw [Memory.writeSeq, read_writeSeq_outside _ _ _ _ (by omega)]; simp
    | succ k =>
      have e : a + (k + 1) = (a + 1) + k := by omega
      rw [Memory.writeSeq, e, ih _ _ k (by simpa using h)]
      simp

/-- What is stored is read back. -/
theorem readSeq_writeSeq (m : List (Nat × BitVec n)) (a : Nat) (xs : List (BitVec n)) :
    Memory.readSeq (Memory.writeSeq m a xs) a xs.length = xs := by
  apply List.ext_getElem (by simp)
  intro i h1 h2
  rw [getElem_readSeq, read_writeSeq_inside _ _ _ _ h2]

/-! ## The canonical form -/

theorem wf_cons (c : Nat × BitVec n) (m : List (Nat × BitVec n)) :
    Memory.wf (c :: m) = true ↔ c.2 ≠ Memory.unlisted n ∧ (∀ d ∈ m, c.1 < d.1) ∧ Memory.wf m = true := by
  simp [Memory.wf, and_assoc]

theorem wf_erase (m : List (Nat × BitVec n)) (a : Nat) (h : Memory.wf m = true) : Memory.wf (Memory.erase m a) = true := by
  induction m with
  | nil => rfl
  | cons c m ih =>
    obtain ⟨hc, hm, hw⟩ := (wf_cons c m).1 h
    by_cases e : c.1 = a
    · simpa [Memory.erase, e] using ih hw
    · have : Memory.erase (c :: m) a = c :: Memory.erase m a := by simp [Memory.erase, e]
      rw [this]
      exact (wf_cons _ _).2 ⟨hc, fun d hd => hm d (List.mem_filter.1 hd).1, ih hw⟩

theorem mem_insert (m : List (Nat × BitVec n)) (a : Nat) (x : BitVec n) (d : Nat × BitVec n) :
    d ∈ Memory.insert m a x ↔ d = (a, x) ∨ d ∈ m := by
  induction m with
  | nil => simp [Memory.insert]
  | cons c m ih =>
    simp only [Memory.insert]
    split <;> simp [ih, or_left_comm]

theorem wf_insert (m : List (Nat × BitVec n)) (a : Nat) (x : BitVec n) (hx : x ≠ Memory.unlisted n)
    (ha : ∀ c ∈ m, c.1 ≠ a) (h : Memory.wf m = true) : Memory.wf (Memory.insert m a x) = true := by
  induction m with
  | nil => simp [Memory.insert, Memory.wf, hx]
  | cons c m ih =>
    obtain ⟨hc, hm, hw⟩ := (wf_cons c m).1 h
    simp only [Memory.insert]
    split
    · rename_i lt
      refine (wf_cons _ _).2 ⟨hx, fun d hd => ?_, h⟩
      rcases List.mem_cons.1 hd with rfl | hd
      · exact lt
      · exact lt_trans lt (hm d hd)
    · rename_i nlt
      have hne := ha c (by simp)
      refine (wf_cons _ _).2 ⟨hc, fun d hd => ?_, ih (fun d hd => ha d (by simp [hd])) hw⟩
      rcases (mem_insert _ _ _ _).1 hd with rfl | hd
      · show c.1 < a
        omega
      · exact hm d hd

/-- A write keeps the canonical form. -/
theorem wf_write (m : List (Nat × BitVec n)) (a : Nat) (x : BitVec n) (h : Memory.wf m = true) :
    Memory.wf (Memory.write m a x) = true := by
  simp only [Memory.write]
  split
  · exact wf_erase m a h
  · exact wf_insert _ _ _ ‹_› (not_mem_erase m a) (wf_erase m a h)

/-- A sequence write keeps the canonical form. -/
theorem wf_writeSeq (m : List (Nat × BitVec n)) (a : Nat) (xs : List (BitVec n)) (h : Memory.wf m = true) :
    Memory.wf (Memory.writeSeq m a xs) = true := by
  induction xs generalizing m a with
  | nil => exact h
  | cons x xs ih => exact ih _ _ (wf_write m a x h)

/-! ## The bound on addresses -/

theorem below_iff (m : List (Nat × BitVec n)) (b : Nat) : Memory.below m b = true ↔ ∀ c ∈ m, c.1 < b := by
  simp [Memory.below]

/-- A write below the bound keeps every listed address below it. -/
theorem below_write (m : List (Nat × BitVec n)) (a b : Nat) (x : BitVec n) (ha : a < b) (h : Memory.below m b = true) :
    Memory.below (Memory.write m a x) b = true := by
  rw [below_iff] at *
  have he : ∀ c ∈ Memory.erase m a, c.1 < b := fun c hc => h c (List.mem_filter.1 hc).1
  simp only [Memory.write]
  split
  · exact he
  · intro c hc
    rcases (mem_insert _ _ _ _).1 hc with rfl | hc
    · exact ha
    · exact he c hc

/-- A sequence write that ends at or below the bound keeps every listed address below it. -/
theorem below_writeSeq (m : List (Nat × BitVec n)) (a b : Nat) (xs : List (BitVec n)) (ha : a + xs.length ≤ b)
    (h : Memory.below m b = true) : Memory.below (Memory.writeSeq m a xs) b = true := by
  induction xs generalizing m a with
  | nil => exact h
  | cons x xs ih =>
    simp only [List.length_cons] at ha
    exact ih _ _ (by omega) (below_write m a b x (by omega) h)

end Sys2Proof.Machine
end

