-- ==== Sys2Proof/Laws/State.lean ====
section
/-! SUPPORT. One lemma per field of State per named update, true by rfl, so that no proof unfolds a record update; and the
accessors after an update. -/

namespace Sys2Proof.Machine

variable (s : State)

/-! ## writeE -/

@[simp] theorem writeE_params (i : EReg) (x : Element) : (s.writeE i x).params = s.params := rfl
@[simp] theorem writeE_e (i : EReg) (x : Element) : (s.writeE i x).e = s.e.set i x := rfl
@[simp] theorem writeE_v (i : EReg) (x : Element) : (s.writeE i x).v = s.v := rfl
@[simp] theorem writeE_pc (i : EReg) (x : Element) : (s.writeE i x).pc = s.pc := rfl
@[simp] theorem writeE_engState (i : EReg) (x : Element) : (s.writeE i x).engState = s.engState := rfl
@[simp] theorem writeE_cause (i : EReg) (x : Element) : (s.writeE i x).cause = s.cause := rfl
@[simp] theorem writeE_faultPc (i : EReg) (x : Element) : (s.writeE i x).faultPc = s.faultPc := rfl
@[simp] theorem writeE_faultInstr (i : EReg) (x : Element) : (s.writeE i x).faultInstr = s.faultInstr := rfl
@[simp] theorem writeE_ieDone (i : EReg) (x : Element) : (s.writeE i x).ieDone = s.ieDone := rfl
@[simp] theorem writeE_ieFault (i : EReg) (x : Element) : (s.writeE i x).ieFault = s.ieFault := rfl
@[simp] theorem writeE_accErr (i : EReg) (x : Element) : (s.writeE i x).accErr = s.accErr := rfl
@[simp] theorem writeE_abortPending (i : EReg) (x : Element) : (s.writeE i x).abortPending = s.abortPending := rfl
@[simp] theorem writeE_imem (i : EReg) (x : Element) : (s.writeE i x).imem = s.imem := rfl
@[simp] theorem writeE_dmem (i : EReg) (x : Element) : (s.writeE i x).dmem = s.dmem := rfl
@[simp] theorem writeE_rst (i : EReg) (x : Element) : (s.writeE i x).rst = s.rst := rfl
@[simp] theorem writeE_schedule (i : EReg) (x : Element) : (s.writeE i x).schedule = s.schedule := rfl
@[simp] theorem writeE_hostData (i : EReg) (x : Element) : (s.writeE i x).hostData = s.hostData := rfl
@[simp] theorem writeE_freeDraws (i : EReg) (x : Element) : (s.writeE i x).freeDraws = s.freeDraws := rfl

/-! ## writeV -/

@[simp] theorem writeV_params (i : VReg) (xs : Poly) : (s.writeV i xs).params = s.params := rfl
@[simp] theorem writeV_e (i : VReg) (xs : Poly) : (s.writeV i xs).e = s.e := rfl
@[simp] theorem writeV_v (i : VReg) (xs : Poly) : (s.writeV i xs).v = s.v.set i xs := rfl
@[simp] theorem writeV_pc (i : VReg) (xs : Poly) : (s.writeV i xs).pc = s.pc := rfl
@[simp] theorem writeV_engState (i : VReg) (xs : Poly) : (s.writeV i xs).engState = s.engState := rfl
@[simp] theorem writeV_cause (i : VReg) (xs : Poly) : (s.writeV i xs).cause = s.cause := rfl
@[simp] theorem writeV_faultPc (i : VReg) (xs : Poly) : (s.writeV i xs).faultPc = s.faultPc := rfl
@[simp] theorem writeV_faultInstr (i : VReg) (xs : Poly) : (s.writeV i xs).faultInstr = s.faultInstr := rfl
@[simp] theorem writeV_ieDone (i : VReg) (xs : Poly) : (s.writeV i xs).ieDone = s.ieDone := rfl
@[simp] theorem writeV_ieFault (i : VReg) (xs : Poly) : (s.writeV i xs).ieFault = s.ieFault := rfl
@[simp] theorem writeV_accErr (i : VReg) (xs : Poly) : (s.writeV i xs).accErr = s.accErr := rfl
@[simp] theorem writeV_abortPending (i : VReg) (xs : Poly) : (s.writeV i xs).abortPending = s.abortPending := rfl
@[simp] theorem writeV_imem (i : VReg) (xs : Poly) : (s.writeV i xs).imem = s.imem := rfl
@[simp] theorem writeV_dmem (i : VReg) (xs : Poly) : (s.writeV i xs).dmem = s.dmem := rfl
@[simp] theorem writeV_rst (i : VReg) (xs : Poly) : (s.writeV i xs).rst = s.rst := rfl
@[simp] theorem writeV_schedule (i : VReg) (xs : Poly) : (s.writeV i xs).schedule = s.schedule := rfl
@[simp] theorem writeV_hostData (i : VReg) (xs : Poly) : (s.writeV i xs).hostData = s.hostData := rfl
@[simp] theorem writeV_freeDraws (i : VReg) (xs : Poly) : (s.writeV i xs).freeDraws = s.freeDraws := rfl

/-! ## setPc -/

@[simp] theorem setPc_params (p : PcValue) : (s.setPc p).params = s.params := rfl
@[simp] theorem setPc_e (p : PcValue) : (s.setPc p).e = s.e := rfl
@[simp] theorem setPc_v (p : PcValue) : (s.setPc p).v = s.v := rfl
@[simp] theorem setPc_pc (p : PcValue) : (s.setPc p).pc = p := rfl
@[simp] theorem setPc_engState (p : PcValue) : (s.setPc p).engState = s.engState := rfl
@[simp] theorem setPc_cause (p : PcValue) : (s.setPc p).cause = s.cause := rfl
@[simp] theorem setPc_faultPc (p : PcValue) : (s.setPc p).faultPc = s.faultPc := rfl
@[simp] theorem setPc_faultInstr (p : PcValue) : (s.setPc p).faultInstr = s.faultInstr := rfl
@[simp] theorem setPc_ieDone (p : PcValue) : (s.setPc p).ieDone = s.ieDone := rfl
@[simp] theorem setPc_ieFault (p : PcValue) : (s.setPc p).ieFault = s.ieFault := rfl
@[simp] theorem setPc_accErr (p : PcValue) : (s.setPc p).accErr = s.accErr := rfl
@[simp] theorem setPc_abortPending (p : PcValue) : (s.setPc p).abortPending = s.abortPending := rfl
@[simp] theorem setPc_imem (p : PcValue) : (s.setPc p).imem = s.imem := rfl
@[simp] theorem setPc_dmem (p : PcValue) : (s.setPc p).dmem = s.dmem := rfl
@[simp] theorem setPc_rst (p : PcValue) : (s.setPc p).rst = s.rst := rfl
@[simp] theorem setPc_schedule (p : PcValue) : (s.setPc p).schedule = s.schedule := rfl
@[simp] theorem setPc_hostData (p : PcValue) : (s.setPc p).hostData = s.hostData := rfl
@[simp] theorem setPc_freeDraws (p : PcValue) : (s.setPc p).freeDraws = s.freeDraws := rfl

/-! ## setEngState -/

@[simp] theorem setEngState_params (g : EngState) : (s.setEngState g).params = s.params := rfl
@[simp] theorem setEngState_e (g : EngState) : (s.setEngState g).e = s.e := rfl
@[simp] theorem setEngState_v (g : EngState) : (s.setEngState g).v = s.v := rfl
@[simp] theorem setEngState_pc (g : EngState) : (s.setEngState g).pc = s.pc := rfl
@[simp] theorem setEngState_engState (g : EngState) : (s.setEngState g).engState = g := rfl
@[simp] theorem setEngState_cause (g : EngState) : (s.setEngState g).cause = s.cause := rfl
@[simp] theorem setEngState_faultPc (g : EngState) : (s.setEngState g).faultPc = s.faultPc := rfl
@[simp] theorem setEngState_faultInstr (g : EngState) : (s.setEngState g).faultInstr = s.faultInstr := rfl
@[simp] theorem setEngState_ieDone (g : EngState) : (s.setEngState g).ieDone = s.ieDone := rfl
@[simp] theorem setEngState_ieFault (g : EngState) : (s.setEngState g).ieFault = s.ieFault := rfl
@[simp] theorem setEngState_accErr (g : EngState) : (s.setEngState g).accErr = s.accErr := rfl
@[simp] theorem setEngState_abortPending (g : EngState) : (s.setEngState g).abortPending = s.abortPending := rfl
@[simp] theorem setEngState_imem (g : EngState) : (s.setEngState g).imem = s.imem := rfl
@[simp] theorem setEngState_dmem (g : EngState) : (s.setEngState g).dmem = s.dmem := rfl
@[simp] theorem setEngState_rst (g : EngState) : (s.setEngState g).rst = s.rst := rfl
@[simp] theorem setEngState_schedule (g : EngState) : (s.setEngState g).schedule = s.schedule := rfl
@[simp] theorem setEngState_hostData (g : EngState) : (s.setEngState g).hostData = s.hostData := rfl
@[simp] theorem setEngState_freeDraws (g : EngState) : (s.setEngState g).freeDraws = s.freeDraws := rfl

/-! ## setEnables -/

@[simp] theorem setEnables_params (d f : Bool) : (s.setEnables d f).params = s.params := rfl
@[simp] theorem setEnables_e (d f : Bool) : (s.setEnables d f).e = s.e := rfl
@[simp] theorem setEnables_v (d f : Bool) : (s.setEnables d f).v = s.v := rfl
@[simp] theorem setEnables_pc (d f : Bool) : (s.setEnables d f).pc = s.pc := rfl
@[simp] theorem setEnables_engState (d f : Bool) : (s.setEnables d f).engState = s.engState := rfl
@[simp] theorem setEnables_cause (d f : Bool) : (s.setEnables d f).cause = s.cause := rfl
@[simp] theorem setEnables_faultPc (d f : Bool) : (s.setEnables d f).faultPc = s.faultPc := rfl
@[simp] theorem setEnables_faultInstr (d f : Bool) : (s.setEnables d f).faultInstr = s.faultInstr := rfl
@[simp] theorem setEnables_ieDone (d f : Bool) : (s.setEnables d f).ieDone = d := rfl
@[simp] theorem setEnables_ieFault (d f : Bool) : (s.setEnables d f).ieFault = f := rfl
@[simp] theorem setEnables_accErr (d f : Bool) : (s.setEnables d f).accErr = s.accErr := rfl
@[simp] theorem setEnables_abortPending (d f : Bool) : (s.setEnables d f).abortPending = s.abortPending := rfl
@[simp] theorem setEnables_imem (d f : Bool) : (s.setEnables d f).imem = s.imem := rfl
@[simp] theorem setEnables_dmem (d f : Bool) : (s.setEnables d f).dmem = s.dmem := rfl
@[simp] theorem setEnables_rst (d f : Bool) : (s.setEnables d f).rst = s.rst := rfl
@[simp] theorem setEnables_schedule (d f : Bool) : (s.setEnables d f).schedule = s.schedule := rfl
@[simp] theorem setEnables_hostData (d f : Bool) : (s.setEnables d f).hostData = s.hostData := rfl
@[simp] theorem setEnables_freeDraws (d f : Bool) : (s.setEnables d f).freeDraws = s.freeDraws := rfl

/-! ## setRst -/

@[simp] theorem setRst_params (l : Bool) : (s.setRst l).params = s.params := rfl
@[simp] theorem setRst_e (l : Bool) : (s.setRst l).e = s.e := rfl
@[simp] theorem setRst_v (l : Bool) : (s.setRst l).v = s.v := rfl
@[simp] theorem setRst_pc (l : Bool) : (s.setRst l).pc = s.pc := rfl
@[simp] theorem setRst_engState (l : Bool) : (s.setRst l).engState = s.engState := rfl
@[simp] theorem setRst_cause (l : Bool) : (s.setRst l).cause = s.cause := rfl
@[simp] theorem setRst_faultPc (l : Bool) : (s.setRst l).faultPc = s.faultPc := rfl
@[simp] theorem setRst_faultInstr (l : Bool) : (s.setRst l).faultInstr = s.faultInstr := rfl
@[simp] theorem setRst_ieDone (l : Bool) : (s.setRst l).ieDone = s.ieDone := rfl
@[simp] theorem setRst_ieFault (l : Bool) : (s.setRst l).ieFault = s.ieFault := rfl
@[simp] theorem setRst_accErr (l : Bool) : (s.setRst l).accErr = s.accErr := rfl
@[simp] theorem setRst_abortPending (l : Bool) : (s.setRst l).abortPending = s.abortPending := rfl
@[simp] theorem setRst_imem (l : Bool) : (s.setRst l).imem = s.imem := rfl
@[simp] theorem setRst_dmem (l : Bool) : (s.setRst l).dmem = s.dmem := rfl
@[simp] theorem setRst_rst (l : Bool) : (s.setRst l).rst = l := rfl
@[simp] theorem setRst_schedule (l : Bool) : (s.setRst l).schedule = s.schedule := rfl
@[simp] theorem setRst_hostData (l : Bool) : (s.setRst l).hostData = s.hostData := rfl
@[simp] theorem setRst_freeDraws (l : Bool) : (s.setRst l).freeDraws = s.freeDraws := rfl

/-! ## setSchedule -/

@[simp] theorem setSchedule_params (evs : List Event) : (s.setSchedule evs).params = s.params := rfl
@[simp] theorem setSchedule_e (evs : List Event) : (s.setSchedule evs).e = s.e := rfl
@[simp] theorem setSchedule_v (evs : List Event) : (s.setSchedule evs).v = s.v := rfl
@[simp] theorem setSchedule_pc (evs : List Event) : (s.setSchedule evs).pc = s.pc := rfl
@[simp] theorem setSchedule_engState (evs : List Event) : (s.setSchedule evs).engState = s.engState := rfl
@[simp] theorem setSchedule_cause (evs : List Event) : (s.setSchedule evs).cause = s.cause := rfl
@[simp] theorem setSchedule_faultPc (evs : List Event) : (s.setSchedule evs).faultPc = s.faultPc := rfl
@[simp] theorem setSchedule_faultInstr (evs : List Event) : (s.setSchedule evs).faultInstr = s.faultInstr := rfl
@[simp] theorem setSchedule_ieDone (evs : List Event) : (s.setSchedule evs).ieDone = s.ieDone := rfl
@[simp] theorem setSchedule_ieFault (evs : List Event) : (s.setSchedule evs).ieFault = s.ieFault := rfl
@[simp] theorem setSchedule_accErr (evs : List Event) : (s.setSchedule evs).accErr = s.accErr := rfl
@[simp] theorem setSchedule_abortPending (evs : List Event) : (s.setSchedule evs).abortPending = s.abortPending := rfl
@[simp] theorem setSchedule_imem (evs : List Event) : (s.setSchedule evs).imem = s.imem := rfl
@[simp] theorem setSchedule_dmem (evs : List Event) : (s.setSchedule evs).dmem = s.dmem := rfl
@[simp] theorem setSchedule_rst (evs : List Event) : (s.setSchedule evs).rst = s.rst := rfl
@[simp] theorem setSchedule_schedule (evs : List Event) : (s.setSchedule evs).schedule = evs := rfl
@[simp] theorem setSchedule_hostData (evs : List Event) : (s.setSchedule evs).hostData = s.hostData := rfl
@[simp] theorem setSchedule_freeDraws (evs : List Event) : (s.setSchedule evs).freeDraws = s.freeDraws := rfl

/-! ## setHostData -/

@[simp] theorem setHostData_params (w : Word) : (s.setHostData w).params = s.params := rfl
@[simp] theorem setHostData_e (w : Word) : (s.setHostData w).e = s.e := rfl
@[simp] theorem setHostData_v (w : Word) : (s.setHostData w).v = s.v := rfl
@[simp] theorem setHostData_pc (w : Word) : (s.setHostData w).pc = s.pc := rfl
@[simp] theorem setHostData_engState (w : Word) : (s.setHostData w).engState = s.engState := rfl
@[simp] theorem setHostData_cause (w : Word) : (s.setHostData w).cause = s.cause := rfl
@[simp] theorem setHostData_faultPc (w : Word) : (s.setHostData w).faultPc = s.faultPc := rfl
@[simp] theorem setHostData_faultInstr (w : Word) : (s.setHostData w).faultInstr = s.faultInstr := rfl
@[simp] theorem setHostData_ieDone (w : Word) : (s.setHostData w).ieDone = s.ieDone := rfl
@[simp] theorem setHostData_ieFault (w : Word) : (s.setHostData w).ieFault = s.ieFault := rfl
@[simp] theorem setHostData_accErr (w : Word) : (s.setHostData w).accErr = s.accErr := rfl
@[simp] theorem setHostData_abortPending (w : Word) : (s.setHostData w).abortPending = s.abortPending := rfl
@[simp] theorem setHostData_imem (w : Word) : (s.setHostData w).imem = s.imem := rfl
@[simp] theorem setHostData_dmem (w : Word) : (s.setHostData w).dmem = s.dmem := rfl
@[simp] theorem setHostData_rst (w : Word) : (s.setHostData w).rst = s.rst := rfl
@[simp] theorem setHostData_schedule (w : Word) : (s.setHostData w).schedule = s.schedule := rfl
@[simp] theorem setHostData_hostData (w : Word) : (s.setHostData w).hostData = w := rfl
@[simp] theorem setHostData_freeDraws (w : Word) : (s.setHostData w).freeDraws = s.freeDraws := rfl

/-! ## setFreeDraws -/

@[simp] theorem setFreeDraws_params (n : Nat) : (s.setFreeDraws n).params = s.params := rfl
@[simp] theorem setFreeDraws_e (n : Nat) : (s.setFreeDraws n).e = s.e := rfl
@[simp] theorem setFreeDraws_v (n : Nat) : (s.setFreeDraws n).v = s.v := rfl
@[simp] theorem setFreeDraws_pc (n : Nat) : (s.setFreeDraws n).pc = s.pc := rfl
@[simp] theorem setFreeDraws_engState (n : Nat) : (s.setFreeDraws n).engState = s.engState := rfl
@[simp] theorem setFreeDraws_cause (n : Nat) : (s.setFreeDraws n).cause = s.cause := rfl
@[simp] theorem setFreeDraws_faultPc (n : Nat) : (s.setFreeDraws n).faultPc = s.faultPc := rfl
@[simp] theorem setFreeDraws_faultInstr (n : Nat) : (s.setFreeDraws n).faultInstr = s.faultInstr := rfl
@[simp] theorem setFreeDraws_ieDone (n : Nat) : (s.setFreeDraws n).ieDone = s.ieDone := rfl
@[simp] theorem setFreeDraws_ieFault (n : Nat) : (s.setFreeDraws n).ieFault = s.ieFault := rfl
@[simp] theorem setFreeDraws_accErr (n : Nat) : (s.setFreeDraws n).accErr = s.accErr := rfl
@[simp] theorem setFreeDraws_abortPending (n : Nat) : (s.setFreeDraws n).abortPending = s.abortPending := rfl
@[simp] theorem setFreeDraws_imem (n : Nat) : (s.setFreeDraws n).imem = s.imem := rfl
@[simp] theorem setFreeDraws_dmem (n : Nat) : (s.setFreeDraws n).dmem = s.dmem := rfl
@[simp] theorem setFreeDraws_rst (n : Nat) : (s.setFreeDraws n).rst = s.rst := rfl
@[simp] theorem setFreeDraws_schedule (n : Nat) : (s.setFreeDraws n).schedule = s.schedule := rfl
@[simp] theorem setFreeDraws_hostData (n : Nat) : (s.setFreeDraws n).hostData = s.hostData := rfl
@[simp] theorem setFreeDraws_freeDraws (n : Nat) : (s.setFreeDraws n).freeDraws = n := rfl

/-! ## dmemWrite -/

@[simp] theorem dmemWrite_params (addr : Nat) (xs : Poly) : (s.dmemWrite addr xs).params = s.params := rfl
@[simp] theorem dmemWrite_e (addr : Nat) (xs : Poly) : (s.dmemWrite addr xs).e = s.e := rfl
@[simp] theorem dmemWrite_v (addr : Nat) (xs : Poly) : (s.dmemWrite addr xs).v = s.v := rfl
@[simp] theorem dmemWrite_pc (addr : Nat) (xs : Poly) : (s.dmemWrite addr xs).pc = s.pc := rfl
@[simp] theorem dmemWrite_engState (addr : Nat) (xs : Poly) : (s.dmemWrite addr xs).engState = s.engState := rfl
@[simp] theorem dmemWrite_cause (addr : Nat) (xs : Poly) : (s.dmemWrite addr xs).cause = s.cause := rfl
@[simp] theorem dmemWrite_faultPc (addr : Nat) (xs : Poly) : (s.dmemWrite addr xs).faultPc = s.faultPc := rfl
@[simp] theorem dmemWrite_faultInstr (addr : Nat) (xs : Poly) : (s.dmemWrite addr xs).faultInstr = s.faultInstr := rfl
@[simp] theorem dmemWrite_ieDone (addr : Nat) (xs : Poly) : (s.dmemWrite addr xs).ieDone = s.ieDone := rfl
@[simp] theorem dmemWrite_ieFault (addr : Nat) (xs : Poly) : (s.dmemWrite addr xs).ieFault = s.ieFault := rfl
@[simp] theorem dmemWrite_accErr (addr : Nat) (xs : Poly) : (s.dmemWrite addr xs).accErr = s.accErr := rfl
@[simp] theorem dmemWrite_abortPending (addr : Nat) (xs : Poly) : (s.dmemWrite addr xs).abortPending = s.abortPending := rfl
@[simp] theorem dmemWrite_imem (addr : Nat) (xs : Poly) : (s.dmemWrite addr xs).imem = s.imem := rfl
@[simp] theorem dmemWrite_dmem (addr : Nat) (xs : Poly) : (s.dmemWrite addr xs).dmem = Memory.writeSeq s.dmem addr xs := rfl
@[simp] theorem dmemWrite_rst (addr : Nat) (xs : Poly) : (s.dmemWrite addr xs).rst = s.rst := rfl
@[simp] theorem dmemWrite_schedule (addr : Nat) (xs : Poly) : (s.dmemWrite addr xs).schedule = s.schedule := rfl
@[simp] theorem dmemWrite_hostData (addr : Nat) (xs : Poly) : (s.dmemWrite addr xs).hostData = s.hostData := rfl
@[simp] theorem dmemWrite_freeDraws (addr : Nat) (xs : Poly) : (s.dmemWrite addr xs).freeDraws = s.freeDraws := rfl

/-! ## imemWrite -/

@[simp] theorem imemWrite_params (k : Nat) (w : Word) : (s.imemWrite k w).params = s.params := rfl
@[simp] theorem imemWrite_e (k : Nat) (w : Word) : (s.imemWrite k w).e = s.e := rfl
@[simp] theorem imemWrite_v (k : Nat) (w : Word) : (s.imemWrite k w).v = s.v := rfl
@[simp] theorem imemWrite_pc (k : Nat) (w : Word) : (s.imemWrite k w).pc = s.pc := rfl
@[simp] theorem imemWrite_engState (k : Nat) (w : Word) : (s.imemWrite k w).engState = s.engState := rfl
@[simp] theorem imemWrite_cause (k : Nat) (w : Word) : (s.imemWrite k w).cause = s.cause := rfl
@[simp] theorem imemWrite_faultPc (k : Nat) (w : Word) : (s.imemWrite k w).faultPc = s.faultPc := rfl
@[simp] theorem imemWrite_faultInstr (k : Nat) (w : Word) : (s.imemWrite k w).faultInstr = s.faultInstr := rfl
@[simp] theorem imemWrite_ieDone (k : Nat) (w : Word) : (s.imemWrite k w).ieDone = s.ieDone := rfl
@[simp] theorem imemWrite_ieFault (k : Nat) (w : Word) : (s.imemWrite k w).ieFault = s.ieFault := rfl
@[simp] theorem imemWrite_accErr (k : Nat) (w : Word) : (s.imemWrite k w).accErr = s.accErr := rfl
@[simp] theorem imemWrite_abortPending (k : Nat) (w : Word) : (s.imemWrite k w).abortPending = s.abortPending := rfl
@[simp] theorem imemWrite_imem (k : Nat) (w : Word) : (s.imemWrite k w).imem = Memory.write s.imem k w := rfl
@[simp] theorem imemWrite_dmem (k : Nat) (w : Word) : (s.imemWrite k w).dmem = s.dmem := rfl
@[simp] theorem imemWrite_rst (k : Nat) (w : Word) : (s.imemWrite k w).rst = s.rst := rfl
@[simp] theorem imemWrite_schedule (k : Nat) (w : Word) : (s.imemWrite k w).schedule = s.schedule := rfl
@[simp] theorem imemWrite_hostData (k : Nat) (w : Word) : (s.imemWrite k w).hostData = s.hostData := rfl
@[simp] theorem imemWrite_freeDraws (k : Nat) (w : Word) : (s.imemWrite k w).freeDraws = s.freeDraws := rfl

/-! ## stop -/

@[simp] theorem stop_params (c : Cause) (p : PcValue) (w : Word) : (s.stop c p w).params = s.params := rfl
@[simp] theorem stop_e (c : Cause) (p : PcValue) (w : Word) : (s.stop c p w).e = s.e := rfl
@[simp] theorem stop_v (c : Cause) (p : PcValue) (w : Word) : (s.stop c p w).v = s.v := rfl
@[simp] theorem stop_pc (c : Cause) (p : PcValue) (w : Word) : (s.stop c p w).pc = s.pc := rfl
@[simp] theorem stop_engState (c : Cause) (p : PcValue) (w : Word) : (s.stop c p w).engState = .fault := rfl
@[simp] theorem stop_cause (c : Cause) (p : PcValue) (w : Word) : (s.stop c p w).cause = c := rfl
@[simp] theorem stop_faultPc (c : Cause) (p : PcValue) (w : Word) : (s.stop c p w).faultPc = p := rfl
@[simp] theorem stop_faultInstr (c : Cause) (p : PcValue) (w : Word) : (s.stop c p w).faultInstr = w := rfl
@[simp] theorem stop_ieDone (c : Cause) (p : PcValue) (w : Word) : (s.stop c p w).ieDone = s.ieDone := rfl
@[simp] theorem stop_ieFault (c : Cause) (p : PcValue) (w : Word) : (s.stop c p w).ieFault = s.ieFault := rfl
@[simp] theorem stop_accErr (c : Cause) (p : PcValue) (w : Word) : (s.stop c p w).accErr = s.accErr := rfl
@[simp] theorem stop_abortPending (c : Cause) (p : PcValue) (w : Word) : (s.stop c p w).abortPending = false := rfl
@[simp] theorem stop_imem (c : Cause) (p : PcValue) (w : Word) : (s.stop c p w).imem = s.imem := rfl
@[simp] theorem stop_dmem (c : Cause) (p : PcValue) (w : Word) : (s.stop c p w).dmem = s.dmem := rfl
@[simp] theorem stop_rst (c : Cause) (p : PcValue) (w : Word) : (s.stop c p w).rst = s.rst := rfl
@[simp] theorem stop_schedule (c : Cause) (p : PcValue) (w : Word) : (s.stop c p w).schedule = s.schedule := rfl
@[simp] theorem stop_hostData (c : Cause) (p : PcValue) (w : Word) : (s.stop c p w).hostData = s.hostData := rfl
@[simp] theorem stop_freeDraws (c : Cause) (p : PcValue) (w : Word) : (s.stop c p w).freeDraws = s.freeDraws := rfl

/-! ## start -/

@[simp] theorem start_params : (s.start).params = s.params := rfl
@[simp] theorem start_e : (s.start).e = s.e := rfl
@[simp] theorem start_v : (s.start).v = s.v := rfl
@[simp] theorem start_pc : (s.start).pc = s.pc := rfl
@[simp] theorem start_engState : (s.start).engState = .running := rfl
@[simp] theorem start_cause : (s.start).cause = .none := rfl
@[simp] theorem start_faultPc : (s.start).faultPc = 0x0000#16 := rfl
@[simp] theorem start_faultInstr : (s.start).faultInstr = 0x00000000#32 := rfl
@[simp] theorem start_ieDone : (s.start).ieDone = s.ieDone := rfl
@[simp] theorem start_ieFault : (s.start).ieFault = s.ieFault := rfl
@[simp] theorem start_accErr : (s.start).accErr = false := rfl
@[simp] theorem start_abortPending : (s.start).abortPending = false := rfl
@[simp] theorem start_imem : (s.start).imem = s.imem := rfl
@[simp] theorem start_dmem : (s.start).dmem = s.dmem := rfl
@[simp] theorem start_rst : (s.start).rst = s.rst := rfl
@[simp] theorem start_schedule : (s.start).schedule = s.schedule := rfl
@[simp] theorem start_hostData : (s.start).hostData = s.hostData := rfl
@[simp] theorem start_freeDraws : (s.start).freeDraws = s.freeDraws := rfl

/-! ## acknowledge -/

@[simp] theorem acknowledge_params : (s.acknowledge).params = s.params := rfl
@[simp] theorem acknowledge_e : (s.acknowledge).e = s.e := rfl
@[simp] theorem acknowledge_v : (s.acknowledge).v = s.v := rfl
@[simp] theorem acknowledge_pc : (s.acknowledge).pc = s.pc := rfl
@[simp] theorem acknowledge_engState : (s.acknowledge).engState = .idle := rfl
@[simp] theorem acknowledge_cause : (s.acknowledge).cause = .none := rfl
@[simp] theorem acknowledge_faultPc : (s.acknowledge).faultPc = 0x0000#16 := rfl
@[simp] theorem acknowledge_faultInstr : (s.acknowledge).faultInstr = 0x00000000#32 := rfl
@[simp] theorem acknowledge_ieDone : (s.acknowledge).ieDone = s.ieDone := rfl
@[simp] theorem acknowledge_ieFault : (s.acknowledge).ieFault = s.ieFault := rfl
@[simp] theorem acknowledge_accErr : (s.acknowledge).accErr = false := rfl
@[simp] theorem acknowledge_abortPending : (s.acknowledge).abortPending = s.abortPending := rfl
@[simp] theorem acknowledge_imem : (s.acknowledge).imem = s.imem := rfl
@[simp] theorem acknowledge_dmem : (s.acknowledge).dmem = s.dmem := rfl
@[simp] theorem acknowledge_rst : (s.acknowledge).rst = s.rst := rfl
@[simp] theorem acknowledge_schedule : (s.acknowledge).schedule = s.schedule := rfl
@[simp] theorem acknowledge_hostData : (s.acknowledge).hostData = s.hostData := rfl
@[simp] theorem acknowledge_freeDraws : (s.acknowledge).freeDraws = s.freeDraws := rfl

/-! ## requestAbort -/

@[simp] theorem requestAbort_params : (s.requestAbort).params = s.params := rfl
@[simp] theorem requestAbort_e : (s.requestAbort).e = s.e := rfl
@[simp] theorem requestAbort_v : (s.requestAbort).v = s.v := rfl
@[simp] theorem requestAbort_pc : (s.requestAbort).pc = s.pc := rfl
@[simp] theorem requestAbort_engState : (s.requestAbort).engState = s.engState := rfl
@[simp] theorem requestAbort_cause : (s.requestAbort).cause = s.cause := rfl
@[simp] theorem requestAbort_faultPc : (s.requestAbort).faultPc = s.faultPc := rfl
@[simp] theorem requestAbort_faultInstr : (s.requestAbort).faultInstr = s.faultInstr := rfl
@[simp] theorem requestAbort_ieDone : (s.requestAbort).ieDone = s.ieDone := rfl
@[simp] theorem requestAbort_ieFault : (s.requestAbort).ieFault = s.ieFault := rfl
@[simp] theorem requestAbort_accErr : (s.requestAbort).accErr = s.accErr := rfl
@[simp] theorem requestAbort_abortPending : (s.requestAbort).abortPending = true := rfl
@[simp] theorem requestAbort_imem : (s.requestAbort).imem = s.imem := rfl
@[simp] theorem requestAbort_dmem : (s.requestAbort).dmem = s.dmem := rfl
@[simp] theorem requestAbort_rst : (s.requestAbort).rst = s.rst := rfl
@[simp] theorem requestAbort_schedule : (s.requestAbort).schedule = s.schedule := rfl
@[simp] theorem requestAbort_hostData : (s.requestAbort).hostData = s.hostData := rfl
@[simp] theorem requestAbort_freeDraws : (s.requestAbort).freeDraws = s.freeDraws := rfl

/-! ## clearAbort -/

@[simp] theorem clearAbort_params : (s.clearAbort).params = s.params := rfl
@[simp] theorem clearAbort_e : (s.clearAbort).e = s.e := rfl
@[simp] theorem clearAbort_v : (s.clearAbort).v = s.v := rfl
@[simp] theorem clearAbort_pc : (s.clearAbort).pc = s.pc := rfl
@[simp] theorem clearAbort_engState : (s.clearAbort).engState = s.engState := rfl
@[simp] theorem clearAbort_cause : (s.clearAbort).cause = s.cause := rfl
@[simp] theorem clearAbort_faultPc : (s.clearAbort).faultPc = s.faultPc := rfl
@[simp] theorem clearAbort_faultInstr : (s.clearAbort).faultInstr = s.faultInstr := rfl
@[simp] theorem clearAbort_ieDone : (s.clearAbort).ieDone = s.ieDone := rfl
@[simp] theorem clearAbort_ieFault : (s.clearAbort).ieFault = s.ieFault := rfl
@[simp] theorem clearAbort_accErr : (s.clearAbort).accErr = s.accErr := rfl
@[simp] theorem clearAbort_abortPending : (s.clearAbort).abortPending = false := rfl
@[simp] theorem clearAbort_imem : (s.clearAbort).imem = s.imem := rfl
@[simp] theorem clearAbort_dmem : (s.clearAbort).dmem = s.dmem := rfl
@[simp] theorem clearAbort_rst : (s.clearAbort).rst = s.rst := rfl
@[simp] theorem clearAbort_schedule : (s.clearAbort).schedule = s.schedule := rfl
@[simp] theorem clearAbort_hostData : (s.clearAbort).hostData = s.hostData := rfl
@[simp] theorem clearAbort_freeDraws : (s.clearAbort).freeDraws = s.freeDraws := rfl

/-! ## noteAccessError -/

@[simp] theorem noteAccessError_params : (s.noteAccessError).params = s.params := rfl
@[simp] theorem noteAccessError_e : (s.noteAccessError).e = s.e := rfl
@[simp] theorem noteAccessError_v : (s.noteAccessError).v = s.v := rfl
@[simp] theorem noteAccessError_pc : (s.noteAccessError).pc = s.pc := rfl
@[simp] theorem noteAccessError_engState : (s.noteAccessError).engState = s.engState := rfl
@[simp] theorem noteAccessError_cause : (s.noteAccessError).cause = s.cause := rfl
@[simp] theorem noteAccessError_faultPc : (s.noteAccessError).faultPc = s.faultPc := rfl
@[simp] theorem noteAccessError_faultInstr : (s.noteAccessError).faultInstr = s.faultInstr := rfl
@[simp] theorem noteAccessError_ieDone : (s.noteAccessError).ieDone = s.ieDone := rfl
@[simp] theorem noteAccessError_ieFault : (s.noteAccessError).ieFault = s.ieFault := rfl
@[simp] theorem noteAccessError_accErr : (s.noteAccessError).accErr = true := rfl
@[simp] theorem noteAccessError_abortPending : (s.noteAccessError).abortPending = s.abortPending := rfl
@[simp] theorem noteAccessError_imem : (s.noteAccessError).imem = s.imem := rfl
@[simp] theorem noteAccessError_dmem : (s.noteAccessError).dmem = s.dmem := rfl
@[simp] theorem noteAccessError_rst : (s.noteAccessError).rst = s.rst := rfl
@[simp] theorem noteAccessError_schedule : (s.noteAccessError).schedule = s.schedule := rfl
@[simp] theorem noteAccessError_hostData : (s.noteAccessError).hostData = s.hostData := rfl
@[simp] theorem noteAccessError_freeDraws : (s.noteAccessError).freeDraws = s.freeDraws := rfl

/-! ## resetRegisters -/

@[simp] theorem resetRegisters_params : (s.resetRegisters).params = s.params := rfl
@[simp] theorem resetRegisters_e : (s.resetRegisters).e = Vector.replicate 16 0x00#8 := rfl
@[simp] theorem resetRegisters_v : (s.resetRegisters).v = Vector.replicate 8 [] := rfl
@[simp] theorem resetRegisters_pc : (s.resetRegisters).pc = 0x0000#16 := rfl
@[simp] theorem resetRegisters_engState : (s.resetRegisters).engState = .idle := rfl
@[simp] theorem resetRegisters_cause : (s.resetRegisters).cause = .none := rfl
@[simp] theorem resetRegisters_faultPc : (s.resetRegisters).faultPc = 0x0000#16 := rfl
@[simp] theorem resetRegisters_faultInstr : (s.resetRegisters).faultInstr = 0x00000000#32 := rfl
@[simp] theorem resetRegisters_ieDone : (s.resetRegisters).ieDone = false := rfl
@[simp] theorem resetRegisters_ieFault : (s.resetRegisters).ieFault = false := rfl
@[simp] theorem resetRegisters_accErr : (s.resetRegisters).accErr = false := rfl
@[simp] theorem resetRegisters_abortPending : (s.resetRegisters).abortPending = false := rfl
@[simp] theorem resetRegisters_imem : (s.resetRegisters).imem = s.imem := rfl
@[simp] theorem resetRegisters_dmem : (s.resetRegisters).dmem = s.dmem := rfl
@[simp] theorem resetRegisters_rst : (s.resetRegisters).rst = s.rst := rfl
@[simp] theorem resetRegisters_schedule : (s.resetRegisters).schedule = s.schedule := rfl
@[simp] theorem resetRegisters_hostData : (s.resetRegisters).hostData = s.hostData := rfl
@[simp] theorem resetRegisters_freeDraws : (s.resetRegisters).freeDraws = s.freeDraws := rfl

/-! ## The accessors after an update -/

@[simp] theorem readE_writeE_same (i : EReg) (x : Element) : (s.writeE i x).readE i = x := by
  simp [State.readE]

theorem readE_writeE_ne (i j : EReg) (x : Element) (h : j ≠ i) : (s.writeE i x).readE j = s.readE j := by
  have hv : i.val ≠ j.val := fun e => h (Fin.ext e.symm)
  simp [State.readE, hv]

@[simp] theorem readV_writeV_same (i : VReg) (xs : Poly) : (s.writeV i xs).readV i = xs := by
  simp [State.readV]

theorem readV_writeV_ne (i j : VReg) (xs : Poly) (h : j ≠ i) : (s.writeV i xs).readV j = s.readV j := by
  have hv : i.val ≠ j.val := fun e => h (Fin.ext e.symm)
  simp [State.readV, hv]

@[simp] theorem readE_writeV (j : VReg) (xs : Poly) (i : EReg) : (s.writeV j xs).readE i = s.readE i := rfl
@[simp] theorem readE_setPc (p : PcValue) (i : EReg) : (s.setPc p).readE i = s.readE i := rfl
@[simp] theorem readE_setEngState (g : EngState) (i : EReg) : (s.setEngState g).readE i = s.readE i := rfl
@[simp] theorem readE_setEnables (d f : Bool) (i : EReg) : (s.setEnables d f).readE i = s.readE i := rfl
@[simp] theorem readE_setRst (l : Bool) (i : EReg) : (s.setRst l).readE i = s.readE i := rfl
@[simp] theorem readE_setSchedule (evs : List Event) (i : EReg) : (s.setSchedule evs).readE i = s.readE i := rfl
@[simp] theorem readE_setHostData (w : Word) (i : EReg) : (s.setHostData w).readE i = s.readE i := rfl
@[simp] theorem readE_setFreeDraws (n : Nat) (i : EReg) : (s.setFreeDraws n).readE i = s.readE i := rfl
@[simp] theorem readE_dmemWrite (addr : Nat) (xs : Poly) (i : EReg) : (s.dmemWrite addr xs).readE i = s.readE i := rfl
@[simp] theorem readE_imemWrite (j : Nat) (w : Word) (i : EReg) : (s.imemWrite j w).readE i = s.readE i := rfl
@[simp] theorem readE_stop (c : Cause) (p : PcValue) (w : Word) (i : EReg) : (s.stop c p w).readE i = s.readE i := rfl
@[simp] theorem readE_start (i : EReg) : (s.start).readE i = s.readE i := rfl
@[simp] theorem readE_acknowledge (i : EReg) : (s.acknowledge).readE i = s.readE i := rfl
@[simp] theorem readE_requestAbort (i : EReg) : (s.requestAbort).readE i = s.readE i := rfl
@[simp] theorem readE_clearAbort (i : EReg) : (s.clearAbort).readE i = s.readE i := rfl
@[simp] theorem readE_noteAccessError (i : EReg) : (s.noteAccessError).readE i = s.readE i := rfl

@[simp] theorem readV_writeE (j : EReg) (x : Element) (i : VReg) : (s.writeE j x).readV i = s.readV i := rfl
@[simp] theorem readV_setPc (p : PcValue) (i : VReg) : (s.setPc p).readV i = s.readV i := rfl
@[simp] theorem readV_setEngState (g : EngState) (i : VReg) : (s.setEngState g).readV i = s.readV i := rfl
@[simp] theorem readV_setEnables (d f : Bool) (i : VReg) : (s.setEnables d f).readV i = s.readV i := rfl
@[simp] theorem readV_setRst (l : Bool) (i : VReg) : (s.setRst l).readV i = s.readV i := rfl
@[simp] theorem readV_setSchedule (evs : List Event) (i : VReg) : (s.setSchedule evs).readV i = s.readV i := rfl
@[simp] theorem readV_setHostData (w : Word) (i : VReg) : (s.setHostData w).readV i = s.readV i := rfl
@[simp] theorem readV_setFreeDraws (n : Nat) (i : VReg) : (s.setFreeDraws n).readV i = s.readV i := rfl
@[simp] theorem readV_dmemWrite (addr : Nat) (xs : Poly) (i : VReg) : (s.dmemWrite addr xs).readV i = s.readV i := rfl
@[simp] theorem readV_imemWrite (j : Nat) (w : Word) (i : VReg) : (s.imemWrite j w).readV i = s.readV i := rfl
@[simp] theorem readV_stop (c : Cause) (p : PcValue) (w : Word) (i : VReg) : (s.stop c p w).readV i = s.readV i := rfl
@[simp] theorem readV_start (i : VReg) : (s.start).readV i = s.readV i := rfl
@[simp] theorem readV_acknowledge (i : VReg) : (s.acknowledge).readV i = s.readV i := rfl
@[simp] theorem readV_requestAbort (i : VReg) : (s.requestAbort).readV i = s.readV i := rfl
@[simp] theorem readV_clearAbort (i : VReg) : (s.clearAbort).readV i = s.readV i := rfl
@[simp] theorem readV_noteAccessError (i : VReg) : (s.noteAccessError).readV i = s.readV i := rfl

@[simp] theorem dmemByte_writeE (j : EReg) (x : Element) (a : Nat) : (s.writeE j x).dmemByte a = s.dmemByte a := rfl
@[simp] theorem dmemByte_writeV (j : VReg) (xs : Poly) (a : Nat) : (s.writeV j xs).dmemByte a = s.dmemByte a := rfl
@[simp] theorem dmemByte_setPc (p : PcValue) (a : Nat) : (s.setPc p).dmemByte a = s.dmemByte a := rfl
@[simp] theorem dmemByte_setEngState (g : EngState) (a : Nat) : (s.setEngState g).dmemByte a = s.dmemByte a := rfl
@[simp] theorem dmemByte_setEnables (d f : Bool) (a : Nat) : (s.setEnables d f).dmemByte a = s.dmemByte a := rfl
@[simp] theorem dmemByte_setRst (l : Bool) (a : Nat) : (s.setRst l).dmemByte a = s.dmemByte a := rfl
@[simp] theorem dmemByte_setSchedule (evs : List Event) (a : Nat) : (s.setSchedule evs).dmemByte a = s.dmemByte a := rfl
@[simp] theorem dmemByte_setHostData (w : Word) (a : Nat) : (s.setHostData w).dmemByte a = s.dmemByte a := rfl
@[simp] theorem dmemByte_setFreeDraws (n : Nat) (a : Nat) : (s.setFreeDraws n).dmemByte a = s.dmemByte a := rfl
@[simp] theorem dmemByte_imemWrite (j : Nat) (w : Word) (a : Nat) : (s.imemWrite j w).dmemByte a = s.dmemByte a := rfl
@[simp] theorem dmemByte_stop (c : Cause) (p : PcValue) (w : Word) (a : Nat) : (s.stop c p w).dmemByte a = s.dmemByte a := rfl
@[simp] theorem dmemByte_start (a : Nat) : (s.start).dmemByte a = s.dmemByte a := rfl
@[simp] theorem dmemByte_acknowledge (a : Nat) : (s.acknowledge).dmemByte a = s.dmemByte a := rfl
@[simp] theorem dmemByte_requestAbort (a : Nat) : (s.requestAbort).dmemByte a = s.dmemByte a := rfl
@[simp] theorem dmemByte_clearAbort (a : Nat) : (s.clearAbort).dmemByte a = s.dmemByte a := rfl
@[simp] theorem dmemByte_noteAccessError (a : Nat) : (s.noteAccessError).dmemByte a = s.dmemByte a := rfl
@[simp] theorem dmemByte_resetRegisters (a : Nat) : (s.resetRegisters).dmemByte a = s.dmemByte a := rfl

@[simp] theorem imemWord_writeE (j : EReg) (x : Element) (k : Nat) : (s.writeE j x).imemWord k = s.imemWord k := rfl
@[simp] theorem imemWord_writeV (j : VReg) (xs : Poly) (k : Nat) : (s.writeV j xs).imemWord k = s.imemWord k := rfl
@[simp] theorem imemWord_setPc (p : PcValue) (k : Nat) : (s.setPc p).imemWord k = s.imemWord k := rfl
@[simp] theorem imemWord_setEngState (g : EngState) (k : Nat) : (s.setEngState g).imemWord k = s.imemWord k := rfl
@[simp] theorem imemWord_setEnables (d f : Bool) (k : Nat) : (s.setEnables d f).imemWord k = s.imemWord k := rfl
@[simp] theorem imemWord_setRst (l : Bool) (k : Nat) : (s.setRst l).imemWord k = s.imemWord k := rfl
@[simp] theorem imemWord_setSchedule (evs : List Event) (k : Nat) : (s.setSchedule evs).imemWord k = s.imemWord k := rfl
@[simp] theorem imemWord_setHostData (w : Word) (k : Nat) : (s.setHostData w).imemWord k = s.imemWord k := rfl
@[simp] theorem imemWord_setFreeDraws (n : Nat) (k : Nat) : (s.setFreeDraws n).imemWord k = s.imemWord k := rfl
@[simp] theorem imemWord_dmemWrite (addr : Nat) (xs : Poly) (k : Nat) : (s.dmemWrite addr xs).imemWord k = s.imemWord k := rfl
@[simp] theorem imemWord_stop (c : Cause) (p : PcValue) (w : Word) (k : Nat) : (s.stop c p w).imemWord k = s.imemWord k := rfl
@[simp] theorem imemWord_start (k : Nat) : (s.start).imemWord k = s.imemWord k := rfl
@[simp] theorem imemWord_acknowledge (k : Nat) : (s.acknowledge).imemWord k = s.imemWord k := rfl
@[simp] theorem imemWord_requestAbort (k : Nat) : (s.requestAbort).imemWord k = s.imemWord k := rfl
@[simp] theorem imemWord_clearAbort (k : Nat) : (s.clearAbort).imemWord k = s.imemWord k := rfl
@[simp] theorem imemWord_noteAccessError (k : Nat) : (s.noteAccessError).imemWord k = s.imemWord k := rfl
@[simp] theorem imemWord_resetRegisters (k : Nat) : (s.resetRegisters).imemWord k = s.imemWord k := rfl

end Sys2Proof.Machine
end

