-- ==== Sys2Proof/Laws/Ops.lean ====
section
/-! SUPPORT. What each shared operation can do, once: the ends of an instruction, and the memories seen through the
machine's own reads. -/

namespace Sys2Proof.Machine

variable (s : State)

/-! ## The ends of an instruction -/

/-- A retired instruction answers the state with `pc` advanced, and nothing else. -/
theorem retire_eq_next (t : State) : s.retire = .next t ↔ t = s.setPc (s.pc + 1#16) := by
  simp [State.retire, eq_comm]

/-- A transfer answers the state with `pc` at the target, and nothing else. -/
theorem jumpTo_eq_next (p : PcValue) (t : State) : s.jumpTo p = .next t ↔ t = s.setPc p := by
  simp [State.jumpTo, eq_comm]

/-- A raised fault answers the stop action at the instruction's own `pc`, and nothing else. -/
theorem raise_eq_next (c : Cause) (i : Instr) (t : State) : s.raise c i = .next t ↔ t = s.stop c s.pc (encode i) := by
  simp [State.raise, eq_comm]

/-! ## DMEM -/

theorem dmemByte_dmemWrite_inside (addr : Nat) (xs : Poly) (k : Nat) (h : k < xs.length) :
    (s.dmemWrite addr xs).dmemByte (addr + k) = xs[k] :=
  read_writeSeq_inside s.dmem addr xs k h

theorem dmemByte_dmemWrite_outside (addr : Nat) (xs : Poly) (a : Nat) (h : a < addr ∨ addr + xs.length ≤ a) :
    (s.dmemWrite addr xs).dmemByte a = s.dmemByte a :=
  read_writeSeq_outside s.dmem addr xs a h

@[simp] theorem length_dmemRead (addr n : Nat) : (s.dmemRead addr n).length = n := length_readSeq s.dmem addr n

theorem getElem_dmemRead (addr n k : Nat) (h : k < (s.dmemRead addr n).length) :
    (s.dmemRead addr n)[k] = s.dmemByte (addr + k) :=
  getElem_readSeq s.dmem addr n k h

/-- What is stored is read back. -/
theorem dmemRead_dmemWrite (addr : Nat) (xs : Poly) : (s.dmemWrite addr xs).dmemRead addr xs.length = xs :=
  readSeq_writeSeq s.dmem addr xs

theorem wf_dmemWrite (addr : Nat) (xs : Poly) (h : Memory.wf s.dmem = true) :
    Memory.wf (s.dmemWrite addr xs).dmem = true :=
  wf_writeSeq s.dmem addr xs h

theorem below_dmemWrite (addr b : Nat) (xs : Poly) (ha : addr + xs.length ≤ b) (h : Memory.below s.dmem b = true) :
    Memory.below (s.dmemWrite addr xs).dmem b = true :=
  below_writeSeq s.dmem addr b xs ha h

/-! ## IMEM -/

theorem imemWord_imemWrite (k j : Nat) (w : Word) : (s.imemWrite k w).imemWord j = if j = k then w else s.imemWord j :=
  read_write s.imem k j w

theorem wf_imemWrite (k : Nat) (w : Word) (h : Memory.wf s.imem = true) : Memory.wf (s.imemWrite k w).imem = true :=
  wf_write s.imem k w h

theorem below_imemWrite (k b : Nat) (w : Word) (hk : k < b) (h : Memory.below s.imem b = true) :
    Memory.below (s.imemWrite k w).imem b = true :=
  below_write s.imem k b w hk h

/-! ## Vector registers -/

/-- A property of every vector register survives a write of a sequence that has it. -/
theorem forall_readV_writeV (P : Poly → Prop) (d : VReg) (xs : Poly) (hx : P xs) (h : ∀ i, P (s.readV i)) (i : VReg) :
    P ((s.writeV d xs).readV i) := by
  by_cases e : i = d
  · subst e; simpa using hx
  · rw [readV_writeV_ne _ _ _ _ e]; exact h i

end Sys2Proof.Machine
end

