-- ==== Sys2Proof/Laws/Host.lean ====
section
/-! SUPPORT. What a host access can do, once, and what no host access touches. -/

namespace Sys2Proof.Machine

variable (s : State)

@[simp] theorem isRunning_iff : s.isRunning = true ↔ s.engState = .running := by simp [State.isRunning]

/-- A read does one of three things: nothing while `rst` is asserted, the access error on a locked resource, or the value
with no effect. -/
theorem hostRead_cases (off : HostOffset) :
    (s.rst = true ∧ s.hostRead off = (0#32, s)) ∨
    (s.rst = false ∧ s.engState = .running ∧ (hostTarget s.params off).isLockable = true ∧
      s.hostRead off = (0#32, s.noteAccessError)) ∨
    (s.rst = false ∧ (s.engState = .running → (hostTarget s.params off).isLockable = false) ∧
      s.hostRead off = (s.hostValue (hostTarget s.params off), s)) := by
  unfold State.hostRead
  cases hr : s.rst <;> cases hi : (hostTarget s.params off).isLockable <;> by_cases hs : s.engState = .running <;>
    simp [State.isRunning, hs]

/-- A write does one of three things: nothing while `rst` is asserted, the access error on a locked resource, or the store
of its target. -/
theorem hostWrite_cases (off : HostOffset) (data : Word) :
    (s.rst = true ∧ s.hostWrite off data = s) ∨
    (s.rst = false ∧ s.engState = .running ∧ (hostTarget s.params off).isLockable = true ∧
      s.hostWrite off data = s.noteAccessError) ∨
    (s.rst = false ∧ (s.engState = .running → (hostTarget s.params off).isLockable = false) ∧
      s.hostWrite off data = s.hostStore data (hostTarget s.params off)) := by
  unfold State.hostWrite
  cases hr : s.rst <;> cases hi : (hostTarget s.params off).isLockable <;> by_cases hs : s.engState = .running <;>
    simp [State.isRunning, hs]

/-- A write to CTRL stores the enables and then does one of three things. -/
theorem writeCtrl_cases (data : Word) :
    let t := s.setEnables (data.getLsbD 2) (data.getLsbD 3)
    (s.engState = .running ∧ data.getLsbD 1 = true ∧ s.writeCtrl data = t.requestAbort) ∨
    (s.engState ≠ .running ∧ data.getLsbD 0 = true ∧ s.writeCtrl data = t.start) ∨
    ((s.engState = .running → data.getLsbD 1 = false) ∧ (s.engState ≠ .running → data.getLsbD 0 = false) ∧
      s.writeCtrl data = t) := by
  unfold State.writeCtrl
  by_cases hs : s.engState = .running <;> cases h1 : data.getLsbD 1 <;> cases h0 : data.getLsbD 0 <;>
    simp [State.isRunning, hs]

/-- A write to STATUS acknowledges or does nothing. -/
theorem writeStatus_cases (data : Word) :
    (s.engState ≠ .running ∧ data.getLsbD 31 = true ∧ s.writeStatus data = s.acknowledge) ∨
    ((s.engState ≠ .running → data.getLsbD 31 = false) ∧ s.writeStatus data = s) := by
  unfold State.writeStatus
  by_cases hs : s.engState = .running <;> cases h : data.getLsbD 31 <;> simp [State.isRunning, hs]

/-! ## What no host access touches -/

/-- The parameters, the vector registers, `rst` and the model's own fields. -/
def SameBeyondHost (s t : State) : Prop :=
  t.params = s.params ∧ t.v = s.v ∧ t.rst = s.rst ∧ t.schedule = s.schedule ∧ t.hostData = s.hostData ∧
    t.freeDraws = s.freeDraws

theorem hostRead_beyond (off : HostOffset) : SameBeyondHost s (s.hostRead off).2 := by
  rcases hostRead_cases s off with ⟨_, h⟩ | ⟨_, _, _, h⟩ | ⟨_, _, h⟩ <;> rw [h] <;> simp [SameBeyondHost]

theorem writeCtrl_beyond (data : Word) : SameBeyondHost s (s.writeCtrl data) := by
  rcases writeCtrl_cases s data with ⟨_, _, h⟩ | ⟨_, _, h⟩ | ⟨_, _, h⟩ <;> rw [h] <;> simp [SameBeyondHost]

theorem writeStatus_beyond (data : Word) : SameBeyondHost s (s.writeStatus data) := by
  rcases writeStatus_cases s data with ⟨_, _, h⟩ | ⟨_, h⟩ <;> rw [h] <;> simp [SameBeyondHost]

theorem hostStore_beyond (data : Word) (g : HostTarget) : SameBeyondHost s (s.hostStore data g) := by
  cases g with
  | ctrl => exact writeCtrl_beyond s data
  | status => exact writeStatus_beyond s data
  | _ => simp [State.hostStore, SameBeyondHost]

theorem hostWrite_beyond (off : HostOffset) (data : Word) : SameBeyondHost s (s.hostWrite off data) := by
  rcases hostWrite_cases s off data with ⟨_, h⟩ | ⟨_, _, _, h⟩ | ⟨_, _, h⟩ <;> rw [h]
  · simp [SameBeyondHost]
  · simp [SameBeyondHost]
  · exact hostStore_beyond s data _

end Sys2Proof.Machine
end

