-- ==== Sys2Proof/Laws/Cycle.lean ====
section
/-! SUPPORT. What the engine cycle, the engine's turn, an event and a step can do, once each. -/

namespace Sys2Proof.Machine

variable (s : State)

/-- An engine cycle is one of four things, in the order of 30_encoding.md R110. -/
theorem engineCycle_cases :
    (s.abortPending = true ∧ engineCycle s = .next (s.stop .aborted s.pc 0#32)) ∨
    (s.abortPending = false ∧ s.params.imemWords ≤ s.pc.toNat ∧ engineCycle s = .next (s.stop .fetchRange s.pc 0#32)) ∨
    (s.abortPending = false ∧ s.pc.toNat < s.params.imemWords ∧ (∃ r, decode (s.imemWord s.pc.toNat) = .error r) ∧
      engineCycle s = .next (s.stop .illegalInstruction s.pc (s.imemWord s.pc.toNat))) ∨
    (s.abortPending = false ∧ s.pc.toNat < s.params.imemWords ∧ ∃ i, decode (s.imemWord s.pc.toNat) = .ok i ∧
      engineCycle s = exec i s) := by
  unfold engineCycle
  cases ha : s.abortPending
  · by_cases hp : s.params.imemWords ≤ s.pc.toNat
    · simp [hp]
    · have hlt : s.pc.toNat < s.params.imemWords := by omega
      cases hd : decode (s.imemWord s.pc.toNat) <;> simp [hp, hlt, executeWord, hd]
  · simp

/-- The engine moves only while RUNNING with `rst` released; otherwise its turn changes nothing. -/
theorem engineTurn_cases :
    (s.rst = false ∧ s.engState = .running ∧ engineTurn s = engineCycle s) ∨
    ((s.rst = true ∨ s.engState ≠ .running) ∧ engineTurn s = .next s) := by
  unfold engineTurn
  cases hr : s.rst <;> by_cases hs : s.engState = .running <;> simp [State.isRunning, hs]

/-- With legal parameters a step is the engine's turn or the first event of the schedule. -/
theorem step_of_legal (h : s.params.legal = true) :
    step s = match s.schedule with
      | [] => engineTurn s
      | ev :: rest => takeEvent ev (s.setSchedule rest) := by
  simp only [step, guardedStep, h, if_true]
  rfl

/-- With parameters of no GFLE a step is the model's fault. -/
theorem step_of_illegal (h : s.params.legal = false) : step s = .fault .parametersOutOfRange := by
  simp [step, guardedStep, h]

end Sys2Proof.Machine
end

