-- ==== Sys2Proof/Laws/Decode.lean ====
section
/-! SUPPORT. The fields of the formats, the register fields, and the opcode lookup. -/

namespace Sys2Proof

/-! ## The fields of a word built by a format -/

@[simp] theorem opField_formatN (m : Mnemonic) : opField (formatN m) = m.op := by
  ext i hi
  simp [opField, formatN]
  grind

@[simp] theorem low24_formatN (m : Mnemonic) : low24 (formatN m) = 0#24 := by
  ext i hi
  simp [low24, formatN]
  grind

@[simp] theorem opField_formatR (m : Mnemonic) (d a b : BitVec 4) : opField (formatR m d a b) = m.op := by
  ext i hi
  simp [opField, formatR]
  grind

@[simp] theorem field20_formatR (m : Mnemonic) (d a b : BitVec 4) : field20 (formatR m d a b) = d := by
  ext i hi
  simp [field20, formatR]
  grind

@[simp] theorem field16_formatR (m : Mnemonic) (d a b : BitVec 4) : field16 (formatR m d a b) = a := by
  ext i hi
  simp [field16, formatR]
  grind

@[simp] theorem field12_formatR (m : Mnemonic) (d a b : BitVec 4) : field12 (formatR m d a b) = b := by
  ext i hi
  simp [field12, formatR]
  grind

@[simp] theorem low12_formatR (m : Mnemonic) (d a b : BitVec 4) : low12 (formatR m d a b) = 0#12 := by
  ext i hi
  simp [low12, formatR]
  grind

@[simp] theorem opField_formatI (m : Mnemonic) (d : BitVec 4) (imm : BitVec 8) : opField (formatI m d imm) = m.op := by
  ext i hi
  simp [opField, formatI]
  grind

@[simp] theorem field20_formatI (m : Mnemonic) (d : BitVec 4) (imm : BitVec 8) : field20 (formatI m d imm) = d := by
  ext i hi
  simp [field20, formatI]
  grind

@[simp] theorem mid12_formatI (m : Mnemonic) (d : BitVec 4) (imm : BitVec 8) : mid12 (formatI m d imm) = 0#12 := by
  ext i hi
  simp [mid12, formatI]
  grind

@[simp] theorem low8_formatI (m : Mnemonic) (d : BitVec 4) (imm : BitVec 8) : low8 (formatI m d imm) = imm := by
  ext i hi
  simp [low8, formatI]
  grind

@[simp] theorem opField_formatM (m : Mnemonic) (r : BitVec 4) (len : BitVec 8) (addr : BitVec 12) : opField (formatM m r len addr) = m.op := by
  ext i hi
  simp [opField, formatM]
  grind

@[simp] theorem field20_formatM (m : Mnemonic) (r : BitVec 4) (len : BitVec 8) (addr : BitVec 12) : field20 (formatM m r len addr) = r := by
  ext i hi
  simp [field20, formatM]
  grind

@[simp] theorem len8Field_formatM (m : Mnemonic) (r : BitVec 4) (len : BitVec 8) (addr : BitVec 12) : len8Field (formatM m r len addr) = len := by
  ext i hi
  simp [len8Field, formatM]
  grind

@[simp] theorem low12_formatM (m : Mnemonic) (r : BitVec 4) (len : BitVec 8) (addr : BitVec 12) : low12 (formatM m r len addr) = addr := by
  ext i hi
  simp [low12, formatM]
  grind

@[simp] theorem opField_formatB (m : Mnemonic) (a b : BitVec 4) (off : BitVec 16) : opField (formatB m a b off) = m.op := by
  ext i hi
  simp [opField, formatB]
  grind

@[simp] theorem field20_formatB (m : Mnemonic) (a b : BitVec 4) (off : BitVec 16) : field20 (formatB m a b off) = a := by
  ext i hi
  simp [field20, formatB]
  grind

@[simp] theorem field16_formatB (m : Mnemonic) (a b : BitVec 4) (off : BitVec 16) : field16 (formatB m a b off) = b := by
  ext i hi
  simp [field16, formatB]
  grind

@[simp] theorem low16_formatB (m : Mnemonic) (a b : BitVec 4) (off : BitVec 16) : low16 (formatB m a b off) = off := by
  ext i hi
  simp [low16, formatB]
  grind

@[simp] theorem mid8_formatB (m : Mnemonic) (a b : BitVec 4) (off : BitVec 16) : mid8 (formatB m a b off) = a ++ b := by
  ext i hi
  simp [mid8, formatB]
  grind

/-! ## A word is its fields put together again -/

theorem word_eq_formatN (w : Word) (m : Mnemonic) (h : opField w = m.op) (z : low24 w = 0#24) : formatN m = w := by
  rw [formatN, ← h, ← z]
  ext i hi
  simp [opField, low24]
  grind

theorem word_eq_formatR (w : Word) (m : Mnemonic) (h : opField w = m.op) (z : low12 w = 0#12) :
    formatR m (field20 w) (field16 w) (field12 w) = w := by
  rw [formatR, ← h, ← z]
  ext i hi
  simp [opField, field20, field16, field12, low12]
  grind

theorem word_eq_formatI (w : Word) (m : Mnemonic) (h : opField w = m.op) (z : mid12 w = 0#12) :
    formatI m (field20 w) (low8 w) = w := by
  rw [formatI, ← h, ← z]
  ext i hi
  simp [opField, field20, mid12, low8]
  grind

theorem word_eq_formatM (w : Word) (m : Mnemonic) (h : opField w = m.op) :
    formatM m (field20 w) (len8Field w) (low12 w) = w := by
  rw [formatM, ← h]
  ext i hi
  simp [opField, field20, len8Field, low12]
  grind

theorem word_eq_formatB (w : Word) (m : Mnemonic) (h : opField w = m.op) :
    formatB m (field20 w) (field16 w) (low16 w) = w := by
  rw [formatB, ← h]
  ext i hi
  simp [opField, field20, field16, low16]
  grind

/-- The low 16 bits of a format R word with `b` and `Z` zero. -/
@[simp] theorem low16_formatR_zero (m : Mnemonic) (d a : BitVec 4) : low16 (formatR m d a 0#4) = 0#16 := by
  ext i hi
  simp [low16, formatR]
  grind

/-! ## Register fields -/

@[simp] theorem eRegOf_eField (r : EReg) : eRegOf (eField r) = r := by revert r; decide
@[simp] theorem vRegOf_vField (r : VReg) : vRegOf? (vField r) = some r := by revert r; decide
@[simp] theorem eField_eRegOf (f : BitVec 4) : eField (eRegOf f) = f := by revert f; decide

/-- A kind V field names the register of its value, and only 0 to 7 name one. -/
theorem vRegOf_eq_some (f : BitVec 4) (r : VReg) : vRegOf? f = some r ↔ vField r = f := by revert f r; decide

theorem vRegOf_eq_none (f : BitVec 4) : vRegOf? f = none ↔ 8 ≤ f.toNat := by revert f; decide

/-! ## The checks of the decoder -/

/-- A decoding that goes on past a reserved field found it zero. -/
theorem whenZero_eq_ok {n : Nat} (z : BitVec n) (k : Decoded) (i : Instr) :
    whenZero z k = .ok i ↔ z = 0#n ∧ k = .ok i := by
  by_cases h : z = 0#n <;> simp [whenZero, h]

/-- A decoding that goes on past a kind V field found a register there. -/
theorem withV_eq_ok (f : BitVec 4) (k : VReg → Decoded) (i : Instr) :
    withV f k = .ok i ↔ ∃ r, vField r = f ∧ k r = .ok i := by
  unfold withV
  cases h : vRegOf? f with
  | none =>
    simp only [reduceCtorEq, false_iff, not_exists, not_and]
    intro r hr
    rw [← vRegOf_eq_some, h] at hr
    exact absurd hr (by simp)
  | some r =>
    have hf := (vRegOf_eq_some f r).1 h
    constructor
    · exact fun hk => ⟨r, hf, hk⟩
    · rintro ⟨r', hr', hk⟩
      have : r' = r := by
        have := (vRegOf_eq_some f r').2 hr'
        rw [h] at this
        exact (Option.some.inj this).symm
      exact this ▸ hk

@[simp] theorem withV_vField (r : VReg) (k : VReg → Decoded) : withV (vField r) k = k r := by simp [withV]

/-! ## The opcode lookup -/

@[simp] theorem ofOp_op (m : Mnemonic) : Mnemonic.ofOp? m.op = some m := by cases m <;> rfl

theorem mem_all (m : Mnemonic) : m ∈ Mnemonic.all := by cases m <;> decide

/-- The lookup answers the row whose `op` value the byte is. -/
theorem ofOp_eq_some (b : BitVec 8) (m : Mnemonic) : Mnemonic.ofOp? b = some m ↔ m.op = b := by
  constructor
  · intro h
    simpa using List.find?_some h
  · rintro rfl
    exact ofOp_op m

theorem ofOp_eq_none (b : BitVec 8) : Mnemonic.ofOp? b = none ↔ ∀ m : Mnemonic, m.op ≠ b := by
  constructor
  · intro h m e
    rw [← e, ofOp_op] at h
    exact absurd h (by simp)
  · intro h
    cases e : Mnemonic.ofOp? b with
    | none => rfl
    | some m => exact absurd ((ofOp_eq_some b m).1 e) (h m)

/-- A word decodes to an instruction exactly when its `op` byte is a row's and the row's fields are legal. -/
theorem decode_eq_ok (w : Word) (i : Instr) : decode w = .ok i ↔ ∃ m : Mnemonic, m.op = opField w ∧ decodeAs m w = .ok i := by
  unfold decode
  cases h : Mnemonic.ofOp? (opField w) with
  | none => simpa using fun m hm => absurd hm ((ofOp_eq_none _).1 h m)
  | some m =>
    have hm := (ofOp_eq_some _ _).1 h
    constructor
    · exact fun hd => ⟨m, hm, hd⟩
    · rintro ⟨m', hm', hd⟩
      have : m' = m := by
        have := (ofOp_eq_some _ _).2 hm'
        rw [h] at this
        exact (Option.some.inj this).symm
      exact this ▸ hd

end Sys2Proof
end

