-- ==== Sys2Proof/Laws/Polynomial.lean ====
section
/-! SUPPORT. The lengths and coefficients of the polynomial functions. -/

namespace Sys2Proof.Machine

/-! ## Field functions -/

theorem gfInv_eq_none (a : Element) : gfInv a = none ↔ a = 0x00#8 := by
  by_cases h : a = 0x00#8 <;> simp [gfInv, h]

/-! ## Coefficients -/

theorem coeff_of_lt (p : Poly) (k : Nat) (h : k < p.length) : coeff p k = p[k] := by
  simp [coeff, h]

theorem coeff_of_le (p : Poly) (k : Nat) (h : p.length ≤ k) : coeff p k = 0x00#8 := by
  simp [coeff, h]

theorem coeff_replicate_zero (n k : Nat) : coeff (List.replicate n 0x00#8) k = 0x00#8 := by
  by_cases h : k < n <;> simp [coeff, List.getD_eq_getElem?_getD, h]

/-! ## `poly_add` and `poly_scale` -/

@[simp] theorem length_polyAdd (p q : Poly) : (polyAdd p q).length = max p.length q.length := by
  simp [polyAdd]

/-- Coefficient by coefficient, the shorter operand continued by zeros. -/
theorem coeff_polyAdd (p q : Poly) (k : Nat) : coeff (polyAdd p q) k = gfAdd (coeff p k) (coeff q k) := by
  by_cases h : k < max p.length q.length
  · rw [coeff_of_lt _ _ (by simpa using h)]
    simp [polyAdd]
  · have hp : p.length ≤ k := by omega
    have hq : q.length ≤ k := by omega
    rw [coeff_of_le _ _ (by simp only [length_polyAdd]; omega), coeff_of_le _ _ hp, coeff_of_le _ _ hq]
    rfl

@[simp] theorem length_polyScale (p : Poly) (x : Element) : (polyScale p x).length = p.length := by
  simp [polyScale]

theorem coeff_polyScale (p : Poly) (x : Element) (k : Nat) (h : k < p.length) :
    coeff (polyScale p x) k = gfMul (coeff p k) x := by
  rw [coeff_of_lt _ _ (by simpa using h), coeff_of_lt _ _ h]
  simp [polyScale]

/-! ## `poly_mul` -/

@[simp] theorem length_addInto (r : Poly) (k : Nat) (x : Element) : (addInto r k x).length = r.length := by
  simp [addInto]

theorem coeff_addInto (r : Poly) (k j : Nat) (x : Element) (h : k < r.length) :
    coeff (addInto r k x) j = if j = k then gfAdd (coeff r k) x else coeff r j := by
  by_cases e : j = k
  · subst e
    simp [addInto, coeff, h]
  · simp [addInto, coeff, List.getD_eq_getElem?_getD, e, Ne.symm e]

theorem length_foldl_addInto (js : List Nat) (f : Nat → Nat) (g : Nat → Element) (r : Poly) :
    (js.foldl (fun r j => addInto r (f j) (g j)) r).length = r.length := by
  induction js generalizing r with
  | nil => rfl
  | cons j js ih => rw [List.foldl_cons, ih, length_addInto]

@[simp] theorem length_polyMulRow (p q r : Poly) (i : Nat) : (polyMulRow p q r i).length = r.length :=
  length_foldl_addInto _ _ _ r

theorem length_foldl_polyMulRow (p q : Poly) (is : List Nat) (r : Poly) :
    (is.foldl (polyMulRow p q) r).length = r.length := by
  induction is generalizing r with
  | nil => rfl
  | cons i is ih => rw [List.foldl_cons, ih, length_polyMulRow]

theorem polyMul_nil_left (q : Poly) : polyMul [] q = [] := by simp [polyMul]

theorem polyMul_nil_right (p : Poly) : polyMul p [] = [] := by simp [polyMul]

/-- The length of a product: 0 when an operand is empty, else one less than the sum of the lengths. -/
theorem length_polyMul (p q : Poly) :
    (polyMul p q).length = if p.length = 0 ∨ q.length = 0 then 0 else p.length + q.length - 1 := by
  unfold polyMul
  split
  · rfl
  · rw [length_foldl_polyMulRow, List.length_replicate]

end Sys2Proof.Machine
end

