-- ==== Sys2Proof/Laws/Lagrange.lean ====
section
/-! SUPPORT. The lengths of the Lagrange functions' results, and when they fault. -/

namespace Sys2Proof.Machine

theorem length_basisStep (xs : Poly) (i j : Nat) (nd : Poly × Element) (h : nd.1 ≠ []) :
    (basisStep xs i nd j).1.length = nd.1.length + (if j = i then 0 else 1) := by
  by_cases e : j = i
  · simp [basisStep, e]
  · have : nd.1.length ≠ 0 := by simpa using h
    simp [basisStep, e, length_polyMul, h]

theorem basisStep_ne_nil (xs : Poly) (i j : Nat) (nd : Poly × Element) (h : nd.1 ≠ []) :
    (basisStep xs i nd j).1 ≠ [] := by
  have hl := length_basisStep xs i j nd h
  have : nd.1.length ≠ 0 := by simpa using h
  intro e
  rw [e] at hl
  simp only [List.length_nil] at hl
  omega

theorem length_foldl_basisStep (xs : Poly) (i : Nat) (js : List Nat) (nd : Poly × Element) (h : nd.1 ≠ []) :
    (js.foldl (basisStep xs i) nd).1.length = nd.1.length + (js.filter (fun j => j != i)).length := by
  induction js generalizing nd with
  | nil => simp
  | cons j js ih =>
    rw [List.foldl_cons, ih _ (basisStep_ne_nil xs i j nd h), length_basisStep xs i j nd h]
    by_cases e : j = i
    · simp [e]
    · simp [e]; omega

theorem length_filter_range_ne (n i : Nat) (h : i < n) : ((List.range n).filter (fun j => j != i)).length = n - 1 := by
  induction n with
  | zero => omega
  | succ n ih =>
    rw [List.range_succ, List.filter_append, List.length_append]
    by_cases e : i = n
    · subst e
      have : (List.range i).filter (fun j => j != i) = List.range i := by
        apply List.filter_eq_self.2
        intro j hj
        have := List.mem_range.1 hj
        simp; omega
      simp [this]
    · rw [ih (by omega)]
      simp [Ne.symm e]
      omega

/-- A basis polynomial has as many coefficients as there are sample points. -/
theorem length_lagrangeBasis (i : Nat) (xs l : Poly) (h : i < xs.length) (hl : lagrangeBasis i xs = .ok l) :
    l.length = xs.length := by
  unfold lagrangeBasis at hl
  split at hl
  · injection hl with hl
    rw [← hl, length_polyScale, basisProducts, length_foldl_basisStep _ _ _ _ (by simp), length_filter_range_ne _ _ h]
    simp only [List.length_singleton]
    omega
  · exact absurd hl (by simp)

/-- The only fault of a basis is ZERO_INVERSE, and it is raised exactly when the denominator is zero. -/
theorem lagrangeBasis_eq_error (i : Nat) (xs : Poly) (c : Cause) :
    lagrangeBasis i xs = .error c ↔ c = .zeroInverse ∧ (basisProducts i xs).2 = 0x00#8 := by
  rw [← gfInv_eq_none]
  unfold lagrangeBasis
  cases gfInv (basisProducts i xs).2 <;> simp [eq_comm]

/-- The running result never grows past the number of sample points. -/
theorem length_foldl_interpStep (xs ys : Poly) (is : List Nat) (his : ∀ i ∈ is, i < xs.length) (r : Except Cause Poly)
    (hr : ∀ p, r = .ok p → p.length ≤ xs.length) (p : Poly) (hp : is.foldl (interpStep xs ys) r = .ok p) :
    p.length ≤ xs.length := by
  induction is generalizing r with
  | nil => exact hr p hp
  | cons i is ih =>
    refine ih (fun j hj => his j (by simp [hj])) (interpStep xs ys r i) ?_ hp
    intro q hq
    cases hrr : r with
    | error c => simp [interpStep, hrr] at hq
    | ok a =>
      cases hl : lagrangeBasis i xs with
      | error c => simp [interpStep, hrr, hl] at hq
      | ok l =>
        simp only [interpStep, hrr, hl, Except.ok.injEq] at hq
        rw [← hq, length_polyAdd, length_polyScale, length_lagrangeBasis i xs l (his i (by simp)) hl]
        have := hr a hrr
        omega

/-- An interpolation result is no longer than the sample set. -/
theorem length_lagrangeInterp_le (xs ys p : Poly) (h : lagrangeInterp xs ys = .ok p) : p.length ≤ xs.length := by
  unfold lagrangeInterp at h
  split at h
  · exact absurd h (by simp)
  · split at h
    · exact absurd h (by simp)
    · exact length_foldl_interpStep xs ys _ (fun i hi => List.mem_range.1 hi) _ (by simp) p h

end Sys2Proof.Machine
end

