-- ==== Sys2Proof/Laws/PerInstr.lean ====
section
/-! SUPPORT. Statements made per instruction, one lemma per constructor of Instr. -/

namespace Sys2Proof.Laws

/-- The `op` byte of an instruction's word is its row's (30_encoding.md R90, R94). -/
def OpByte.Statement (i : Instr) : Prop := opField (encode i) = i.mnemonic.op

theorem OpByte.gadd (d a b : EReg) : OpByte.Statement (.gadd d a b) := opField_formatR ..
theorem OpByte.gneg (d a : EReg) : OpByte.Statement (.gneg d a) := opField_formatR ..
theorem OpByte.gmul (d a b : EReg) : OpByte.Statement (.gmul d a b) := opField_formatR ..
theorem OpByte.ginv (d a : EReg) : OpByte.Statement (.ginv d a) := opField_formatR ..
theorem OpByte.peval (d : EReg) (a : VReg) (b : EReg) : OpByte.Statement (.peval d a b) := opField_formatR ..
theorem OpByte.padd (d a b : VReg) : OpByte.Statement (.padd d a b) := opField_formatR ..
theorem OpByte.pmul (d a b : VReg) : OpByte.Statement (.pmul d a b) := opField_formatR ..
theorem OpByte.pscale (d a : VReg) (b : EReg) : OpByte.Statement (.pscale d a b) := opField_formatR ..
theorem OpByte.lbasis (d a : VReg) (b : EReg) : OpByte.Statement (.lbasis d a b) := opField_formatR ..
theorem OpByte.linterp (d a b : VReg) : OpByte.Statement (.linterp d a b) := opField_formatR ..
theorem OpByte.eli (d : EReg) (imm : Element) : OpByte.Statement (.eli d imm) := opField_formatI ..
theorem OpByte.emov (d a : EReg) : OpByte.Statement (.emov d a) := opField_formatR ..
theorem OpByte.einc (d a : EReg) : OpByte.Statement (.einc d a) := opField_formatR ..
theorem OpByte.eld (r : EReg) (addr : Nat) : OpByte.Statement (.eld r addr) := opField_formatM ..
theorem OpByte.est (r : EReg) (addr : Nat) : OpByte.Statement (.est r addr) := opField_formatM ..
theorem OpByte.vld (r : VReg) (len addr : Nat) : OpByte.Statement (.vld r len addr) := opField_formatM ..
theorem OpByte.vst (r : VReg) (addr : Nat) : OpByte.Statement (.vst r addr) := opField_formatM ..
theorem OpByte.vmov (d a : VReg) : OpByte.Statement (.vmov d a) := opField_formatR ..
theorem OpByte.vlen (d : EReg) (a : VReg) : OpByte.Statement (.vlen d a) := opField_formatR ..
theorem OpByte.vget (d : EReg) (a : VReg) (b : EReg) : OpByte.Statement (.vget d a b) := opField_formatR ..
theorem OpByte.vset (d : VReg) (a b : EReg) : OpByte.Statement (.vset d a b) := opField_formatR ..
theorem OpByte.vclr (d : VReg) (len : Nat) : OpByte.Statement (.vclr d len) := opField_formatI ..
theorem OpByte.halt : OpByte.Statement .halt := opField_formatN ..
theorem OpByte.nop : OpByte.Statement .nop := opField_formatN ..
theorem OpByte.jmp (off : Int) : OpByte.Statement (.jmp off) := opField_formatB ..
theorem OpByte.beq (a b : EReg) (off : Int) : OpByte.Statement (.beq a b off) := opField_formatB ..
theorem OpByte.bne (a b : EReg) (off : Int) : OpByte.Statement (.bne a b off) := opField_formatB ..

end Sys2Proof.Laws
end

