-- ==== Sys2Proof/Tests/Slice0.lean ====
section
/-! SUPPORT. Tests of the model on fixed values, each from the section of spec/ its heading names, and for every obligation
with hypotheses a concrete state and operands that meet them (the theorems `test_meets_...`). -/

namespace Sys2Proof.Tests

open Sys2Proof Sys2Proof.Machine

/-! ## Helpers -/

/-- A running engine at `pc` with the given element registers and vector registers; everything else is as at reset. -/
def lab (pc : PcValue) (es : List (EReg × Element)) (vs : List (VReg × Poly)) : State :=
  vs.foldl (fun s p => s.writeV p.1 p.2) (es.foldl (fun s p => s.writeE p.1 p.2) (State.reset.start.setPc pc))

/-- The parameters of an engine with 256 bytes of DMEM. -/
def smallParams : Params := { vlmax := 32, imemWords := 2048, dmemBytes := 256, hostBase := 16384 }

/-- A state with other parameters. -/
def withParams (p : Params) (s : State) : State := { s with params := p }

/-- One field of the state an outcome goes on to. -/
def after (field : State → α) : Result → Option α
  | .next t => some (field t)
  | .fault _ => none
  | .refused _ => none

/-- What a fault leaves: ENG_STATE, CAUSE, FAULT_PC, FAULT_INSTR and `pc`. -/
def record (s : State) : EngState × Cause × PcValue × Word × PcValue :=
  (s.engState, s.cause, s.faultPc, s.faultInstr, s.pc)

/-- `n` elements, all `x`. -/
def fill (n : Nat) (x : Element) : Poly := List.replicate n x

/-! ## WellFormed: each check refuses an ill-formed term and takes the ends of its range (30_encoding.md R93) -/

theorem test_wellFormed_addr :
    Instr.wellFormed (.eld 0 4096) = false ∧ Instr.wellFormed (.est 0 4096) = false ∧
    Instr.wellFormed (.vst 0 4096) = false ∧ Instr.wellFormed (.vld 0 0 4096) = false ∧
    Instr.wellFormed (.eld 0 4095) = true := by decide

theorem test_wellFormed_count :
    Instr.wellFormed (.vld 0 256 0) = false ∧ Instr.wellFormed (.vclr 0 256) = false ∧
    Instr.wellFormed (.vld 0 255 4095) = true ∧ Instr.wellFormed (.vclr 0 255) = true := by decide

theorem test_wellFormed_offset :
    Instr.wellFormed (.jmp 32768) = false ∧ Instr.wellFormed (.beq 0 0 (-32769)) = false ∧
    Instr.wellFormed (.bne 0 0 32768) = false ∧ Instr.wellFormed (.jmp (-32768)) = true ∧
    Instr.wellFormed (.bne 0 0 32767) = true := by decide

/-! ## Decoding: one word of every row, its fields written out from 30_encoding.md R91 and R94 -/

theorem test_decode_gadd : decode (0x10#8 ++ 0x3#4 ++ 0x1#4 ++ 0x2#4 ++ 0x000#12) = .ok (.gadd 3 1 2) := by decide
theorem test_decode_gneg : decode (0x11#8 ++ 0x4#4 ++ 0x1#4 ++ 0x0#4 ++ 0x000#12) = .ok (.gneg 4 1) := by decide
theorem test_decode_gmul : decode (0x12#8 ++ 0x5#4 ++ 0x3#4 ++ 0x4#4 ++ 0x000#12) = .ok (.gmul 5 3 4) := by decide
theorem test_decode_ginv : decode (0x13#8 ++ 0x5#4 ++ 0x1#4 ++ 0x0#4 ++ 0x000#12) = .ok (.ginv 5 1) := by decide
theorem test_decode_peval : decode (0x20#8 ++ 0x3#4 ++ 0x7#4 ++ 0xE#4 ++ 0x000#12) = .ok (.peval 3 7 14) := by decide
theorem test_decode_padd : decode (0x21#8 ++ 0x4#4 ++ 0x3#4 ++ 0x5#4 ++ 0x000#12) = .ok (.padd 4 3 5) := by decide
theorem test_decode_pmul : decode (0x22#8 ++ 0x2#4 ++ 0x0#4 ++ 0x1#4 ++ 0x000#12) = .ok (.pmul 2 0 1) := by decide
theorem test_decode_pscale : decode (0x23#8 ++ 0x7#4 ++ 0x0#4 ++ 0x8#4 ++ 0x000#12) = .ok (.pscale 7 0 8) := by decide
theorem test_decode_lbasis : decode (0x30#8 ++ 0x5#4 ++ 0x0#4 ++ 0x1#4 ++ 0x000#12) = .ok (.lbasis 5 0 1) := by decide
theorem test_decode_linterp : decode (0x31#8 ++ 0x2#4 ++ 0x0#4 ++ 0x1#4 ++ 0x000#12) = .ok (.linterp 2 0 1) := by decide
theorem test_decode_eli : decode (0x40#8 ++ 0xF#4 ++ 0x000#12 ++ 0x57#8) = .ok (.eli 15 0x57#8) := by decide
theorem test_decode_emov : decode (0x41#8 ++ 0x2#4 ++ 0x1#4 ++ 0x0#4 ++ 0x000#12) = .ok (.emov 2 1) := by decide
theorem test_decode_einc : decode (0x42#8 ++ 0x3#4 ++ 0xC#4 ++ 0x0#4 ++ 0x000#12) = .ok (.einc 3 12) := by decide
theorem test_decode_eld : decode (0x43#8 ++ 0x2#4 ++ 0x00#8 ++ 0x001#12) = .ok (.eld 2 1) := by decide
theorem test_decode_est : decode (0x44#8 ++ 0x3#4 ++ 0x00#8 ++ 0xFFF#12) = .ok (.est 3 4095) := by decide
theorem test_decode_vld : decode (0x48#8 ++ 0x1#4 ++ 0x02#8 ++ 0x110#12) = .ok (.vld 1 2 0x110) := by decide
theorem test_decode_vst : decode (0x49#8 ++ 0x2#4 ++ 0x00#8 ++ 0x200#12) = .ok (.vst 2 0x200) := by decide
theorem test_decode_vmov : decode (0x4A#8 ++ 0x1#4 ++ 0x6#4 ++ 0x0#4 ++ 0x000#12) = .ok (.vmov 1 6) := by decide
theorem test_decode_vlen : decode (0x4B#8 ++ 0x9#4 ++ 0x3#4 ++ 0x0#4 ++ 0x000#12) = .ok (.vlen 9 3) := by decide
theorem test_decode_vget : decode (0x4C#8 ++ 0xA#4 ++ 0x3#4 ++ 0xB#4 ++ 0x000#12) = .ok (.vget 10 3 11) := by decide
theorem test_decode_vset : decode (0x4D#8 ++ 0x3#4 ++ 0x9#4 ++ 0x8#4 ++ 0x000#12) = .ok (.vset 3 9 8) := by decide
theorem test_decode_vclr : decode (0x4E#8 ++ 0x3#4 ++ 0x000#12 ++ 0xFF#8) = .ok (.vclr 3 255) := by decide
theorem test_decode_halt : decode (0x01#8 ++ 0x000000#24) = .ok .halt := by decide
theorem test_decode_nop : decode (0x02#8 ++ 0x000000#24) = .ok .nop := by decide
theorem test_decode_jmp : decode (0x03#8 ++ 0x00#8 ++ 0x8000#16) = .ok (.jmp (-32768)) := by decide
theorem test_decode_beq : decode (0x04#8 ++ 0x1#4 ++ 0x2#4 ++ 0x0003#16) = .ok (.beq 1 2 3) := by decide
theorem test_decode_bne : decode (0x05#8 ++ 0xE#4 ++ 0xF#4 ++ 0xFFFC#16) = .ok (.bne 14 15 (-4)) := by decide

/-! ## Decoding: the words of 95_test_vectors.md V-EN -/

theorem test_decode_vectors :
    decode 0x01000000#32 = .ok .halt ∧ decode 0x02000000#32 = .ok .nop ∧ decode 0x0300FFFF#32 = .ok (.jmp (-1)) ∧
    decode 0x10312000#32 = .ok (.gadd 3 1 2) ∧ decode 0x30201000#32 = .ok (.lbasis 2 0 1) ∧
    decode 0x48003100#32 = .ok (.vld 0 3 0x100) ∧ decode 0x4B900000#32 = .ok (.vlen 9 0) ∧
    decode 0x4D313000#32 = .ok (.vset 3 1 3) ∧ decode 0x4E300003#32 = .ok (.vclr 3 3) := by decide

theorem test_decode_illegal_words :
    ([0x00000000#32, 0x03010000#32, 0x10312001#32, 0x11412000#32, 0x14000000#32, 0x20381000#32, 0x21901000#32,
      0x23181000#32, 0x40101057#32, 0x43101000#32, 0x45000000#32, 0x48803100#32, 0x49201200#32, 0x4A180000#32,
      0x4D913000#32, 0x4E800003#32, 0xFFFFFFFF#32].all fun w => (decode w).toOption.isNone) = true := by decide

/-- The decoder and the encoder agree at the ends of every immediate (30_encoding.md R93). -/
theorem test_encode_ends :
    encode (.vld 7 255 4095) = 0x487FFFFF#32 ∧ encode (.beq 1 2 3) = 0x04120003#32 ∧
    encode (.bne 1 0 (-4)) = 0x0510FFFC#32 ∧ encode (.jmp (-32768)) = 0x03008000#32 ∧
    encode (.vset 3 1 3) = 0x4D313000#32 := by decide

theorem test_decodeTableWord : decodeTableWord 32 0x10312000 = some (.gadd 3 1 2) ∧ decodeTableWord 32 0 = none := by decide

/-! ## The field unit (95_test_vectors.md V-F) -/

theorem test_gadd_xor : after (·.readE 3) (exec (.gadd 3 1 2) (lab 4 [(1, 0x57), (2, 0x83)] [])) = some 0xD4#8 := by decide
theorem test_gadd_self : after (·.readE 1) (exec (.gadd 1 1 1) (lab 4 [(1, 0x57)] [])) = some 0x00#8 := by decide
theorem test_gneg : after (·.readE 4) (exec (.gneg 4 1) (lab 4 [(1, 0x57)] [])) = some 0x57#8 := by decide
theorem test_gmul_reduces : after (·.readE 3) (exec (.gmul 3 1 2) (lab 4 [(1, 0xAA), (2, 0x55)] [])) = some 0x59#8 := by decide
theorem test_gmul_self : after (·.readE 1) (exec (.gmul 1 1 1) (lab 4 [(1, 0x02)] [])) = some 0x04#8 := by decide
theorem test_ginv : after (·.readE 1) (exec (.ginv 1 1) (lab 4 [(1, 0x53)] [])) = some 0xCA#8 := by decide +kernel
theorem test_ginv_zero : after record (exec (.ginv 5 1) (lab 4 [(5, 0x11)] [])) =
    some (.fault, .zeroInverse, 0x0004#16, 0x13510000#32, 0x0004#16) := by decide

/-! ## The polynomial units (95_test_vectors.md V-PL) -/

theorem test_peval : after (·.readE 3) (exec (.peval 3 0 1) (lab 4 [(1, 0x57)] [(0, [0x01, 0x02, 0x03])])) = some 0x5B#8 := by
  decide
theorem test_peval_order : after (·.readE 3) (exec (.peval 3 0 1) (lab 4 [(1, 0x02)] [(0, [0x00, 0x00, 0x01])])) =
    some 0x04#8 := by decide
theorem test_padd_longer : after (·.readV 2) (exec (.padd 2 0 1) (lab 4 [] [(0, [0x04]), (1, [0x01, 0x02, 0x03])])) =
    some [0x05, 0x02, 0x03] := by decide
theorem test_padd_keeps_length : after (·.readV 0) (exec (.padd 0 0 0) (lab 4 [] [(0, [0x01, 0x02])])) =
    some [0x00, 0x00] := by decide
theorem test_pmul : after (·.readV 2) (exec (.pmul 2 0 1) (lab 4 [] [(0, [0x01, 0x02, 0x03]), (1, [0x04, 0x05])])) =
    some [0x04, 0x0D, 0x06, 0x0F] := by decide
theorem test_pmul_capacity : after record (exec (.pmul 2 0 1) (lab 4 [] [(0, fill 20 1), (1, fill 14 1)])) =
    some (.fault, .capacity, 0x0004#16, 0x22201000#32, 0x0004#16) := by decide
theorem test_pscale : after (·.readV 1) (exec (.pscale 1 0 1) (lab 4 [(1, 0x83)] [(0, [0x57, 0x01])])) =
    some [0xC1, 0x83] := by decide
theorem test_pscale_zero : after (·.readV 1) (exec (.pscale 1 0 1) (lab 4 [] [(0, [0x01, 0x02, 0x03])])) =
    some [0x00, 0x00, 0x00] := by decide

/-! ## The Lagrange units (95_test_vectors.md V-LG) -/

theorem test_lbasis : after (·.readV 2) (exec (.lbasis 2 0 1) (lab 4 [(1, 0x01)] [(0, [0x01, 0x02, 0x03])])) =
    some [0x01, 0xF7, 0xF6] := by decide +kernel
theorem test_lbasis_duplicate : after record (exec (.lbasis 2 0 1) (lab 4 [] [(0, [0x01, 0x02, 0x01])])) =
    some (.fault, .zeroInverse, 0x0004#16, 0x30201000#32, 0x0004#16) := by decide
theorem test_linterp :
    after (·.readV 2) (exec (.linterp 2 0 1)
      (lab 4 [] [(0, [0x00, 0x01, 0x02, 0x03]), (1, [0x10, 0x20, 0x30, 0x40])])) =
    some [0x10, 0x10, 0xC9, 0xE9] := by decide +kernel
theorem test_linterp_duplicate :
    after record (exec (.linterp 2 0 1) (lab 2 [] [(0, [0x01, 0x02, 0x01]), (1, [0x05, 0x09, 0x11])])) =
    some (.fault, .duplicateX, 0x0002#16, 0x31201000#32, 0x0002#16) := by decide

/-! ## Data movement (95_test_vectors.md V-DM) -/

theorem test_eli : after (·.readE 1) (exec (.eli 1 0x57) (lab 4 [] [])) = some 0x57#8 := by decide
theorem test_emov : after (·.readE 2) (exec (.emov 2 1) (lab 4 [(1, 0x57)] [])) = some 0x57#8 := by decide
theorem test_einc_wraps : after (·.readE 1) (exec (.einc 1 1) (lab 4 [(1, 0xFF)] [])) = some 0x00#8 := by decide
theorem test_einc_is_integer : after (·.readE 1) (exec (.einc 1 1) (lab 4 [(1, 0x01)] [])) = some 0x02#8 := by decide
theorem test_eld : after (·.readE 1) (exec (.eld 1 0xFFF) ((lab 4 [] []).dmemWrite 0xFFF [0x57])) = some 0x57#8 := by decide
theorem test_eld_range : after record (exec (.eld 1 0x100) (withParams smallParams (lab 4 [] []))) =
    some (.fault, .dmemRange, 0x0004#16, 0x43100100#32, 0x0004#16) := by decide
theorem test_est : after (·.dmemRead 0x00F 3) (exec (.est 3 0x010) (lab 4 [(3, 0xD4)] [])) = some [0x00, 0xD4, 0x00] := by
  decide
theorem test_est_range : after record (exec (.est 3 0x100) (withParams smallParams (lab 4 [] []))) =
    some (.fault, .dmemRange, 0x0004#16, 0x44300100#32, 0x0004#16) := by decide
theorem test_vld : after (·.readV 0) (exec (.vld 0 3 0x100) ((lab 4 [] []).dmemWrite 0x100 [0x01, 0x02, 0x03])) =
    some [0x01, 0x02, 0x03] := by decide
theorem test_vld_capacity_first : after record (exec (.vld 0 33 0xFFF) (lab 4 [] [])) =
    some (.fault, .capacity, 0x0004#16, 0x48021FFF#32, 0x0004#16) := by decide
theorem test_vst : after (·.dmemRead 0x200 3) (exec (.vst 2 0x200) (lab 4 [] [(2, [0x1D, 0x16, 0x0E])])) =
    some [0x1D, 0x16, 0x0E] := by decide
theorem test_vst_range : after (fun t => (record t, t.dmemRead 0xFFE 2)) (exec (.vst 2 0xFFE) (lab 4 [] [(2, [0x1D, 0x16, 0x0E])])) =
    some ((.fault, .dmemRange, 0x0004#16, 0x49200FFE#32, 0x0004#16), [0x00, 0x00]) := by decide
theorem test_vmov : after (·.readV 1) (exec (.vmov 1 0) (lab 4 [] [(0, [0x01, 0x02])])) = some [0x01, 0x02] := by decide
theorem test_vlen : after (·.readE 1) (exec (.vlen 1 0) (lab 4 [] [(0, [0x01, 0x02, 0x03])])) = some 0x03#8 := by decide
theorem test_vget_index_first : after (·.readE 1) (exec (.vget 1 0 1) (lab 4 [(1, 0x01)] [(0, [0x0A, 0x0B])])) =
    some 0x0B#8 := by decide
theorem test_vget_range : after record (exec (.vget 2 0 1) (lab 4 [(1, 0x03)] [(0, [0x01, 0x02, 0x03])])) =
    some (.fault, .indexRange, 0x0004#16, 0x4C201000#32, 0x0004#16) := by decide
theorem test_vset : after (·.readV 3) (exec (.vset 3 1 3) (lab 4 [(1, 0x01), (3, 0x09)] [(3, [0x00, 0x00, 0x00])])) =
    some [0x00, 0x09, 0x00] := by decide
theorem test_vset_no_append : after record (exec (.vset 3 1 3) (lab 4 [] [])) =
    some (.fault, .indexRange, 0x0004#16, 0x4D313000#32, 0x0004#16) := by decide
theorem test_vclr : after (·.readV 3) (exec (.vclr 3 3) (lab 4 [] [])) = some [0x00, 0x00, 0x00] := by decide
theorem test_vclr_capacity : after record (exec (.vclr 0 33) (lab 4 [] [])) =
    some (.fault, .capacity, 0x0004#16, 0x4E000021#32, 0x0004#16) := by decide

/-! ## Control transfer (95_test_vectors.md V-CT) -/

theorem test_halt : after (fun t => (t.pc, t.engState)) (exec .halt (lab 5 [] [])) = some (0x0006#16, .done) := by decide
theorem test_nop : after (fun t => (t.pc, t.engState)) (exec .nop (lab 3 [] [])) = some (0x0004#16, .running) := by decide
theorem test_jmp_back : after (·.pc) (exec (.jmp (-1)) (lab 0x10 [] [])) = some 0x000F#16 := by decide
theorem test_jmp_wraps : after (·.pc) (exec (.jmp (-1)) (lab 0 [] [])) = some 0xFFFF#16 := by decide
theorem test_beq_taken : after (·.pc) (exec (.beq 1 2 3) (lab 2 [(1, 0x05), (2, 0x05)] [])) = some 0x0005#16 := by decide
theorem test_beq_not_taken : after (·.pc) (exec (.beq 1 2 3) (lab 2 [(1, 0x05), (2, 0x06)] [])) = some 0x0003#16 := by decide
theorem test_bne_taken : after (·.pc) (exec (.bne 1 0 (-4)) (lab 8 [(1, 0x02), (0, 0x03)] [])) = some 0x0004#16 := by decide
theorem test_bne_not_taken : after (·.pc) (exec (.bne 1 0 (-4)) (lab 8 [(1, 0x03), (0, 0x03)] [])) = some 0x0009#16 := by
  decide

/-! ## The engine cycle, faults and run control (95_test_vectors.md V-EX) -/

/-- A word placed with `withFetchWord` runs as the first instruction after reset. -/
theorem test_step_runs_word : after (·.readE 1) (step (State.reset.withFetchWord 32 0x40100057)) = some 0x57#8 := by decide

theorem test_step_illegal_word : after record (step (State.reset.withFetchWord 32 0)) =
    some (.fault, .illegalInstruction, 0x0000#16, 0x00000000#32, 0x0000#16) := by decide

theorem test_fetch_range : after record (engineCycle (lab 0x0400 [] [])) =
    some (.fault, .fetchRange, 0x0400#16, 0x00000000#32, 0x0400#16) := by decide

theorem test_abort_wins : after record (engineCycle (lab 0x0400 [] []).requestAbort) =
    some (.fault, .aborted, 0x0400#16, 0x00000000#32, 0x0400#16) := by decide

/-- The engine rests right after reset (60_exceptions.md R271). -/
theorem test_reset_rests : after id (step State.reset) = some State.reset := by decide

/-- START while RUNNING and ACK while RUNNING change nothing; START and ABORT in one write. -/
theorem test_run_control :
    (lab 4 [] []).hostWrite 0x004 0x00000001 = lab 4 [] [] ∧ (lab 4 [] []).hostWrite 0x008 0x80000000 = lab 4 [] [] ∧
    ((lab 4 [] []).hostWrite 0x004 0x00000003).abortPending = true ∧
    (State.reset.hostWrite 0x004 0x00000003).engState = .running ∧
    (State.reset.hostWrite 0x004 0x00000003).abortPending = false := by decide

/-- A host read of EREG while RUNNING reads 0 and sets ACCERR; reads of ID and of an unmapped offset do not. -/
theorem test_host_lock :
    ((lab 4 [(1, 0x57)] []).hostRead 0x104).1 = 0x00000000#32 ∧ ((lab 4 [] []).hostRead 0x104).2.accErr = true ∧
    (lab 4 [] []).hostRead 0x000 = (0x47460100#32, lab 4 [] []) ∧ (lab 4 [] []).hostRead 0x020 = (0#32, lab 4 [] []) := by
  decide

/-- STATUS after a fault with its interrupt enabled, and after the acknowledge. -/
theorem test_status_after_fault :
    let s := ((lab 4 [] []).setEnables false true).stop .zeroInverse 4 0x13510000
    (s.hostRead 0x008).1 = 0x00000707#32 ∧ s.irq = true ∧ ((s.hostWrite 0x008 0x80000000).hostRead 0x008).1 = 0#32 ∧
    (s.hostWrite 0x008 0x80000000).irq = false ∧ (s.hostWrite 0x008 0x80000000).pc = 4 := by decide

/-- The host's view of DMEM puts the lowest address in bits 7:0 (20_memory.md R62). -/
theorem test_dmem_window :
    (State.reset.hostWrite 0x1100 0x04030201).dmemRead 0x100 4 = [0x01, 0x02, 0x03, 0x04] ∧
    ((State.reset.dmemWrite 0x100 [0x01, 0x02, 0x03]).hostRead 0x1100).1 = 0x00030201#32 := by decide

/-- CONFIG0 and CONFIG1 with the default parameters (10_state.md R39). -/
theorem test_config : (State.reset.hostRead 0x018).1 = 0x04000020#32 ∧ (State.reset.hostRead 0x01C).1 = 0x00001000#32 := by
  decide

/-- The memories keep their canonical form when a cell takes the unlisted value again. -/
theorem test_memory_canonical :
    (((State.reset.dmemWrite 7 [0x01]).dmemWrite 3 [0x02]).dmem = [(3, 0x02), (7, 0x01)]) ∧
    ((State.reset.dmemWrite 7 [0x01]).dmemWrite 7 [0x00]).dmem = [] := by decide

/-- HOST_BASE places the window (00_scope.md R8). -/
theorem test_windowOffset :
    windowOffset? smallParams 16384 = some 0#14 ∧ windowOffset? smallParams 32767 = some 0x3FFF#14 ∧
    windowOffset? smallParams 16383 = none ∧ windowOffset? smallParams 32768 = none := by decide

/-! ## The assembly language (30_encoding.md R100 to R104) -/

theorem test_assemble_label : assemble 0 "loop: NOP ; here\n bne E1, e0, loop".toList = .ok [0x02000000#32, 0x0510FFFF#32] := by
  decide
theorem test_assemble_range : assemble 0 "ELI e1, 256".toList = .error (.badStatement "ELI e1, 256".toList) := by decide
theorem test_disassemble :
    disassemble 0x48003100#32 = "VLD v0, 0x100, 3".toList ∧ disassemble 0x0510FFFC#32 = "BNE e1, e0, -4".toList ∧
    disassemble 0x45000000#32 = ".word 0x45000000".toList := by decide

/-! ## States and operands that meet the hypotheses of the obligations -/

/-- E1 = 0x57, E2 = 0x83 and E3 = 0x00, with E15 as both operands and as source and destination. -/
theorem test_meets_GaddAndGnegWriteTheirElement :
    let s := lab 4 [(1, 0x57), (2, 0x83), (3, 0x00)] []
    (15 : EReg) = 15 ∧ s.readE 3 = 0x00#8 ∧ s.readE 1 = 0x57#8 ∧ s.readE 2 = 0x83#8 := by decide

theorem test_meets_GmulWritesTheProduct :
    let s := lab 4 [(1, 0x57), (2, 0x83), (4, 0x01), (5, 0x80), (6, 0x02), (7, 0xFF)] []
    s.readE 0 = 0x00#8 ∧ s.readE 4 = 0x01#8 ∧ s.readE 5 = 0x80#8 ∧ s.readE 6 = 0x02#8 ∧ s.readE 7 = 0xFF#8 ∧
    s.readE 1 = 0x57#8 ∧ s.readE 2 = 0x83#8 := by decide

theorem test_meets_GinvWritesTheInverseOrFaults :
    let s := lab 4 [(1, 0x01), (2, 0x02), (3, 0x03), (4, 0xFF), (5, 0x53)] []
    s.readE 1 = 0x01#8 ∧ s.readE 1 ≠ 0x00#8 ∧ s.readE 2 = 0x02#8 ∧ s.readE 3 = 0x03#8 ∧ s.readE 4 = 0xFF#8 ∧
    s.readE 5 = 0x53#8 ∧ s.readE 0 = 0x00#8 := by decide

theorem test_meets_FieldInverseLaws : (0x01#8 : Element) ≠ 0x00#8 ∧ gfInv 0x01#8 = some 0x01#8 := by decide +kernel

theorem test_meets_PevalWritesTheValue :
    let s := lab 4 [(1, 0x02)] [(1, [0x03, 0x05, 0x07]), (2, [0x05] ++ fill 2 0x00)]
    s.readV 0 = [] ∧ s.readV 1 = [0x03, 0x05, 0x07] ∧ s.readE 0 = 0x00#8 ∧ s.readE 1 = 0x02#8 ∧
    s.readV 2 = [0x05#8] ++ List.replicate 2 0x00#8 := by decide

theorem test_meets_PaddAndPscaleWriteTheirPolynomial :
    let s := lab 4 [(1, 0x01), (2, 0x02)] [(1, [0x01, 0x02, 0x03]), (2, [0x04])]
    s.readV 7 = s.readV 6 ∧ s.readV 0 = [] ∧ s.readV 1 = [0x01, 0x02, 0x03] ∧ s.readV 2 = [0x04] ∧ s.readE 0 = 0x00#8 ∧
    s.readE 1 = 0x01#8 ∧ s.readE 2 = 0x02#8 := by decide

/-- Products of 0, of exactly VLMAX = 32 and of 33 coefficients. -/
theorem test_meets_PmulWritesTheProductOrFaults :
    let s := lab 4 [] [(1, fill 20 1), (2, fill 13 1), (3, fill 14 1), (4, [0x57, 0x00]), (5, [0x83]), (6, [0x01, 0x01]),
      (7, [0x02, 0x01])]
    s.readV 0 = [] ∧ (s.readV 1).length + (s.readV 2).length - 1 = s.params.vlmax ∧ s.readV 1 ≠ [] ∧ s.readV 3 ≠ [] ∧
    s.params.vlmax < (s.readV 1).length + (s.readV 3).length - 1 ∧ s.readV 4 = [0x57, 0x00] ∧ s.readV 5 = [0x83] ∧
    s.readV 6 = [0x01, 0x01] ∧ s.readV 7 = [0x02, 0x01] := by decide

theorem test_meets_PolyAddAndScaleByCoefficient : 2 < max [0x01#8].length [0x04#8, 0x05#8, 0x06#8].length ∧ 0 < [0x01#8].length := by
  decide

theorem test_meets_PolyMulIsTheConvolution :
    ([0x01#8] : Poly) ≠ [] ∧ ([0x04#8, 0x05#8] : Poly) ≠ [] ∧ 1 < [0x01#8].length + [0x04#8, 0x05#8].length - 1 := by decide

theorem test_meets_PolynomialRingLaws : ([0x57#8, 0x00#8] : Poly) ≠ [] ∧ ([0x83#8] : Poly) ≠ [] := by decide

/-- Registers of at most VLMAX elements, one of them full, with a basis and an interpolant that succeed. -/
theorem test_meets_ResultsFitVectorRegisters :
    let s := lab 4 [] [(0, fill 32 1), (1, [0x07]), (2, [0x09]), (3, fill 2 1)]
    (∀ r : VReg, (s.readV r).length ≤ s.params.vlmax) ∧ 0 < (s.readV 1).length ∧
    (lagrangeBasis 0 (s.readV 1)).toOption = some [0x01] ∧ (lagrangeInterp (s.readV 1) (s.readV 2)).toOption = some [0x09] ∧
    s.params.vlmax < (polyMul (s.readV 0) (s.readV 3)).length ∧ s.params.vlmax < 33 := by decide +kernel

/-- The last index, the index at the length, a point that is not repeated beside ones that are, and one that is. -/
theorem test_meets_LbasisWritesTheBasisOrFaults :
    let s := lab 4 [(1, 0x01), (2, 0x02), (3, 0x03)] [(1, [0x01, 0x02, 0x01]), (2, [0x00, 0x01]), (3, [0x01, 0x02, 0x03]), (4, [0x07])]
    (s.readE 1).toNat < (s.readV 1).length ∧
    (∀ j, j < (s.readV 1).length → j ≠ (s.readE 1).toNat → coeff (s.readV 1) j ≠ coeff (s.readV 1) (s.readE 1).toNat) ∧
    (s.readE 2).toNat < (s.readV 3).length ∧
    (∀ j, j < (s.readV 3).length → j ≠ (s.readE 2).toNat → coeff (s.readV 3) j ≠ coeff (s.readV 3) (s.readE 2).toNat) ∧
    (s.readV 4).length = 1 ∧ s.readE 1 = 0x01#8 ∧ s.readE 0 = 0x00#8 ∧ s.readV 2 = [0x00, 0x01] ∧
    (s.readV 3).length ≤ (s.readE 3).toNat ∧ (s.readV 0).length ≤ (s.readE 0).toNat ∧
    (s.readE 0).toNat < (s.readV 1).length ∧ coeff (s.readV 1) 2 = coeff (s.readV 1) (s.readE 0).toNat := by decide

/-- Equal lengths with distinct points (0, 1, 2 and 3 of them), with a repeated point, and lengths that differ by one. -/
theorem test_meets_LinterpWritesTheInterpolantOrFaults :
    let s := lab 4 [] [(1, [0x01, 0x02, 0x03]), (2, [0x05, 0x09, 0x11]), (3, [0x07]), (4, [0x01, 0x02]), (5, [0x01, 0x02, 0x01])]
    (s.readV 1).length = (s.readV 2).length ∧ (s.readV 1).Nodup ∧ (s.readV 0).length = (s.readV 6).length ∧
    (s.readV 0).Nodup ∧ s.readV 0 = [] ∧ s.readV 3 = [0x07] ∧ (s.readV 4).length = 0 + 2 ∧ (s.readV 4).Nodup ∧
    (s.readV 1).length ≠ (s.readV 4).length ∧ (s.readV 5).length = (s.readV 2).length ∧ ¬ (s.readV 5).Nodup := by decide

theorem test_meets_LagrangeBasisSelectsItsPoint :
    2 < [0x01#8, 0x02#8, 0x01#8].length ∧ (2 : Nat) ≠ 0 ∧ coeff [0x01#8, 0x02#8, 0x01#8] 2 = coeff [0x01#8, 0x02#8, 0x01#8] 0 ∧
    (lagrangeBasis 1 [0x00#8, 0x01#8]).toOption = some [0x00, 0x01] ∧
    (lagrangeBasis 0 [0x01#8, 0x02#8, 0x01#8]).toOption = none := by decide +kernel

theorem test_meets_InterpolantPassesThroughThePoints :
    [0x01#8, 0x02#8].length ≠ [0x05#8].length ∧ [0x01#8, 0x01#8].length = [0x05#8, 0x06#8].length ∧
    ¬ [0x01#8, 0x01#8].Nodup ∧ [0x01#8, 0x02#8].length = [0x05#8, 0x05#8].length ∧ [0x01#8, 0x02#8].Nodup ∧
    1 < [0x01#8, 0x02#8].length := by decide

theorem test_meets_InterpolantIsUnique :
    (lagrangeInterp [0x01#8, 0x02#8] [0x05#8, 0x05#8]).toOption = some [0x05, 0x00] ∧
    [0x05#8, 0x00#8].length = [0x01#8, 0x02#8].length ∧
    (∀ k, k < [0x01#8, 0x02#8].length → polyEval [0x05#8, 0x00#8] (coeff [0x01#8, 0x02#8] k) = coeff [0x05#8, 0x05#8] k) := by
  decide +kernel

theorem test_meets_EliEmovEincWriteTheirElement :
    let s := lab 4 [(1, 0xFF), (2, 0x01), (3, 0x02)] []
    (1 : EReg) = 1 ∧ s.readE 1 = 0xFF#8 ∧ s.readE 2 = 0x01#8 ∧ s.readE 3 = 0x02#8 := by decide

/-- The last byte and the first address beyond, of 4096 and of 256 bytes. -/
theorem test_meets_EldAndEstMoveOneByte :
    0xFFF < (lab 4 [] []).params.dmemBytes ∧ 0xFF < (withParams smallParams (lab 4 [] [])).params.dmemBytes ∧
    (withParams smallParams (lab 4 [] [])).params.dmemBytes ≤ 0x100 := by decide

/-- Length VLMAX ending at the last byte, length 0 at the last address, one element too many, one byte too far. -/
theorem test_meets_VldLoadsTheSequenceOrFaults :
    let s := lab 4 [] []
    32 ≤ s.params.vlmax ∧ 4064 + 32 ≤ s.params.dmemBytes ∧ 0 ≤ s.params.vlmax ∧ 4095 + 0 ≤ s.params.dmemBytes ∧
    s.params.vlmax < 33 ∧ s.params.dmemBytes < 4065 + 32 := by decide

theorem test_meets_VstStoresTheSequenceOrFaults :
    let s := lab 4 [] [(2, [0x1D, 0x16, 0x0E])]
    4093 + (s.readV 2).length ≤ s.params.dmemBytes ∧ 4095 + (s.readV 0).length ≤ s.params.dmemBytes ∧ s.readV 0 = [] ∧
    s.params.dmemBytes < 4094 + (s.readV 2).length := by decide

theorem test_meets_VmovAndVclrWriteTheirVector :
    32 ≤ (lab 4 [] []).params.vlmax ∧ (lab 4 [] []).params.vlmax < 33 := by decide

theorem test_meets_VlenAndVgetReadTheVector :
    let s := lab 4 [(1, 0x02), (2, 0x03)] [(0, [0x01, 0x02, 0x03])]
    (s.readV 0).length ≤ 255 ∧ (s.readE 1).toNat < (s.readV 0).length ∧ (s.readV 0).length ≤ (s.readE 2).toNat := by decide

theorem test_meets_VsetReplacesOneElementOrFaults :
    let s := lab 4 [(1, 0x02), (2, 0x03)] [(3, [0x00, 0x00, 0x00])]
    (s.readE 1).toNat < (s.readV 3).length ∧ (s.readV 3).length ≤ (s.readE 2).toNat := by decide

theorem test_meets_StoredSequenceLoadsBack :
    let s := lab 4 [] [(2, [0x1D, 0x16, 0x0E])]
    4093 + (s.readV 2).length ≤ s.params.dmemBytes ∧ (s.readV 2).length ≤ s.params.vlmax ∧ 2 < (s.readV 2).length := by decide

theorem test_meets_HaltEndsTheRunAndNopDoesNothing :
    (lab 5 [] []).engState = .running ∧ (lab 5 [] []).abortPending = false ∧
    after (·.engState) (exec .halt (lab 5 [] [])) = some .done := by decide

/-- Index 0, a JMP 0 at the last word, and a JMP whose target is the first index outside IMEM. -/
theorem test_meets_JmpIsRelativeToItself :
    let s := (lab 1023 [] []).imemWrite 1023 0x03000000#32
    (lab 0 [] []).pc = 0x0000#16 ∧ (lab 0 [] []).params.legal = true ∧ s.abortPending = false ∧
    s.pc.toNat < s.params.imemWords ∧ s.imemWord s.pc.toNat = 0x03000000#32 ∧
    after (fun t => decide (s.params.imemWords ≤ t.pc.toNat)) (exec (.jmp 1) s) = some true := by decide

theorem test_meets_BranchesCompareTwoElements :
    let s := lab 2 [(1, 0x05), (2, 0x05), (3, 0x06)] []
    s.readE 1 = s.readE 2 ∧ s.readE 1 ≠ s.readE 3 ∧ (4 : EReg) = 4 := by decide

/-- A NOP, a branch of each kind that is not taken, and the last word of IMEM. -/
theorem test_meets_OtherInstructionsAdvancePc :
    let s := lab 1023 [(1, 0x05), (2, 0x05), (3, 0x06)] []
    s.engState = .running ∧ after (·.engState) (exec .nop s) = some .running ∧
    after (·.engState) (exec (.beq 1 3 9) s) = some .running ∧ s.readE 1 ≠ s.readE 3 ∧
    after (·.engState) (exec (.bne 1 2 9) s) = some .running ∧ s.readE 1 = s.readE 2 ∧ s.params.legal = true ∧
    s.pc.toNat = s.params.imemWords - 1 ∧ s.abortPending = false ∧
    (lab 1024 [] []).pc.toNat = (lab 1024 [] []).params.imemWords := by decide

theorem test_meets_DecodingInvertsEncoding : Instr.wellFormed (.vld 7 255 4095) = true ∧ Instr.wellFormed (.jmp (-32768)) = true := by
  decide

theorem test_meets_DecodingFollowsTheOpcodeMap :
    Mnemonic.matches .vset 0x4D313000#32 = true ∧ decode 0x4D313000#32 = .ok (.vset 3 1 3) := by decide

/-- An illegal word at `pc`. -/
theorem test_meets_IllegalWordsAreTheReservedOnes :
    let s := (lab 3 [] []).imemWrite 3 0x4F000000#32
    s.abortPending = false ∧ s.pc.toNat < s.params.imemWords ∧ decode (s.imemWord s.pc.toNat) = .error .reservedOpcode := by
  decide

/-- A running engine whose word at the last index is an ELI, with nothing scheduled and with the engine and a host access
scheduled. -/
theorem test_meets_StepRunsTheDecodedInstruction :
    let s := (lab 1023 [] []).imemWrite 1023 0x40100057#32
    s.params.legal = true ∧ s.rst = false ∧ s.engState = .running ∧ s.abortPending = false ∧
    s.pc.toNat < s.params.imemWords ∧ decode (s.imemWord s.pc.toNat) = .ok (.eli 1 0x57#8) ∧ s.schedule = [] ∧
    (s.setSchedule [.engineCycle, .hostRead 0]).schedule = .engineCycle :: [.hostRead 0] := by decide

theorem test_meets_EngineTurnWithoutAnInstruction :
    (lab 4 [] []).requestAbort.abortPending = true ∧
    ((lab 1024 [] []).abortPending = false ∧ (lab 1024 [] []).params.imemWords ≤ (lab 1024 [] []).pc.toNat) ∧
    (State.reset.params.legal = true ∧ State.reset.schedule = [] ∧ State.reset.engState ≠ .running) ∧
    (assertReset State.reset).rst = true ∧
    ((lab 4 [] []).params.legal = true ∧ (lab 4 [] []).schedule = [] ∧ (lab 4 [] []).rst = false ∧
      (lab 4 [] []).engState = .running) := by decide

theorem test_meets_StopActionIsPrecise : (lab 4 [] []).params.legal = true ∧ (lab 4 [] []).schedule = [] := by decide

/-- Two fault conditions at once, for each pair the statement orders; a pending abort beside a fetch out of range, an illegal
word and a GINV of zero. -/
theorem test_meets_FirstFaultOfTheOrderIsReported :
    let s := lab 4 [(1, 0x05)] [(0, [0x01, 0x02, 0x01]), (1, [0x05])]
    ((lab 1024 [] []).requestAbort.abortPending = true ∧ (lab 1024 [] []).params.imemWords ≤ (lab 1024 [] []).pc.toNat) ∧
    decode ((lab 4 [] []).requestAbort.imemWord 4) = .error .reservedOpcode ∧
    decode (((lab 4 [] []).imemWrite 4 0x13510000#32).requestAbort.imemWord 4) = .ok (.ginv 5 1) ∧
    ((lab 1024 [] []).abortPending = false ∧ decode ((lab 1024 [] []).imemWord 1024) = .error .reservedOpcode) ∧
    s.engState = .running ∧
    after (·.cause) (exec (.ginv 5 0) s) = some .zeroInverse ∧
    ((s.readV 0).length ≤ (s.readE 1).toNat ∧ ¬ (s.readV 0).Nodup) ∧ (s.readV 0).length ≠ (s.readV 1).length ∧
    (s.params.vlmax < 40 ∧ s.params.dmemBytes < 4095 + 40) := by decide

theorem test_meets_InstructionsRaiseOnlyTheirFaults : (lab 4 [] []).engState = .running := by decide

theorem test_meets_EveryStepAnswersANextState :
    State.reset.params.legal = true ∧ (withParams smallParams State.reset).params.legal = true ∧
    (withParams { smallParams with vlmax := 256 } State.reset).params.legal = false := by decide

theorem test_meets_InstructionsLeaveTheHostSideAlone :
    after (·.imem) (exec .nop (lab 4 [] [])) = some [] ∧ Instr.nop ≠ .halt := by decide

/-- Two states that differ in what EMOV e2, e1 does not name, an interrupt enable among it. -/
theorem test_meets_ExecutionDependsOnNamedSourcesOnly :
    let s := lab 4 [(1, 0x57)] []
    let u := (lab 4 [(1, 0x57), (3, 0x11)] [(0, [0x01])]).setEnables true true
    s ≠ u ∧ s.engState = .running ∧ u.engState = .running ∧ AgreeOnSources (.emov 2 1) s u ∧
    after (·.readE 2) (exec (.emov 2 1) s) = some 0x57#8 ∧ after (·.readE 2) (exec (.emov 2 1) u) = some 0x57#8 := by
  refine ⟨by decide, by decide, by decide, ⟨by decide, by decide, ?_, by decide, by decide⟩, by decide, by decide⟩
  exact fun k h => absurd h (Nat.not_lt_zero k)

/-- Each kind of event first in the schedule, and none. -/
theorem test_meets_EngineStateChangesAsTabled :
    let on := fun (s : State) (evs : List Event) => after (·.engState) (step (s.setSchedule evs))
    (lab 4 [] []).params.legal = true ∧ on (lab 4 [] []) [] = some .fault ∧ on (lab 4 [] []) [.engineCycle] = some .fault ∧
    on State.reset [] = some .idle ∧ on (lab 4 [] []) [.hostRead 0x104] = some .running ∧
    on State.reset [.hostWrite 0x004 0x00000001] = some .running ∧
    on (lab 4 [] []) [.hostWriteNarrow 0x004 0xF 0x00000002] = some .running ∧ on (lab 4 [] []) [.assertReset] = some .idle ∧
    on (assertReset State.reset) [.releaseReset] = some .idle := by decide

theorem test_meets_ScheduleIsTakenInOrder :
    after (·.schedule) (step ((lab 4 [] []).setSchedule [.hostRead 0, .engineCycle])) = some [.engineCycle] ∧
    after (·.schedule) (step State.reset) = some [] := by decide

theorem test_meets_ResetMeetsTheInvariant :
    smallParams.legal = true ∧ Memory.wf [(0, 0x01000000#32), (2047, 0x02000000#32)] = true ∧
    Memory.wf [(0, 0x01#8), (255, 0xFF#8)] = true ∧
    Memory.below [(0, 0x01000000#32), (2047, 0x02000000#32)] smallParams.imemWords = true ∧
    Memory.below [(0, 0x01#8), (255, 0xFF#8)] smallParams.dmemBytes = true := by decide

/-- A running engine with a word at `pc` meets the invariant, and its step goes on. -/
theorem test_meets_EveryStepKeepsTheInvariant :
    Invariant (State.reset.withFetchWord 32 0x40100057) ∧
    after (·.pc) (step (State.reset.withFetchWord 32 0x40100057)) = some 0x0001#16 :=
  ⟨⟨by decide, by decide, by decide, by decide, by decide, by decide, by decide, by decide, by decide, by decide⟩, by decide⟩

/-- The first and last offsets of every locked resource, running and idle. -/
theorem test_meets_LockedAccessOnlySetsAccErr :
    LockedOffset Params.default 0x000C ∧ LockedOffset Params.default 0x000F ∧ LockedOffset Params.default 0x0100 ∧
    LockedOffset Params.default 0x013F ∧ LockedOffset Params.default 0x1000 ∧ LockedOffset Params.default 0x1FFF ∧
    LockedOffset Params.default 0x2000 ∧ LockedOffset Params.default 0x2FFF ∧ LockedOffset smallParams 0x10FF ∧
    LockedOffset smallParams 0x3FFF ∧ (lab 4 [] []).rst = false ∧ (lab 4 [] []).engState = .running ∧
    State.reset.rst = false ∧ State.reset.engState ≠ .running := by
  repeat' apply And.intro
  all_goals first | decide | (unfold LockedOffset; decide)

/-- The first and last offsets of every unmapped range. -/
theorem test_meets_UnmappedAccessHasNoEffect :
    Params.default.legal = true ∧ UnmappedOffset Params.default 0x0020 ∧ UnmappedOffset Params.default 0x00FF ∧
    UnmappedOffset Params.default 0x0140 ∧ UnmappedOffset Params.default 0x0FFF ∧ UnmappedOffset Params.default 0x3000 ∧
    UnmappedOffset Params.default 0x3FFF ∧ smallParams.legal = true ∧ UnmappedOffset smallParams 0x1100 ∧
    UnmappedOffset smallParams 0x1FFF := by
  repeat' apply And.intro
  all_goals first | decide | (unfold UnmappedOffset; decide)

/-- The last mapped words of the windows. -/
theorem test_meets_WindowsReachRegistersAndMemories :
    HostMayTouch State.reset ∧ (1023 < 1024 ∧ 4 * 1023 + 3 < State.reset.params.dmemBytes) ∧
    (1023 < 2048 ∧ 1023 < State.reset.params.imemWords) ∧ HostMayTouch (withParams smallParams State.reset) ∧
    4 * 63 + 3 < smallParams.dmemBytes ∧ 2047 < smallParams.imemWords ∧ smallParams.dmemBytes ≤ 4 * 64 ∧
    State.reset.params.imemWords ≤ 1024 := by
  unfold HostMayTouch
  decide

theorem test_meets_HostAccessesAreWholeWords :
    (0x0004#14 : HostOffset).toNat / 4 = (0x0007#14 : HostOffset).toNat / 4 ∧ (0x5#4).getLsbD 0 = true ∧
    (0x5#4).getLsbD 2 = true ∧ (0xF#4 : BitVec 4) = 0xF#4 := by decide

/-- Idle and running out of reset; and a step from a running engine and from one in reset. -/
theorem test_meets_FixedRegistersReadTheirFields :
    State.reset.rst = false ∧ State.reset.engState ≠ .running ∧ (lab 4 [] []).rst = false ∧ (lab 4 [] []).engState = .running ∧
    after (·.params) (step (lab 4 [] [])) = some Params.default ∧ (assertReset State.reset).rst = true ∧
    after (·.params) (step (assertReset State.reset)) = some Params.default := by decide

theorem test_meets_CtrlStartsAndAborts :
    State.reset.rst = false ∧ State.reset.engState ≠ .running ∧ (lab 4 [] []).rst = false ∧ (lab 4 [] []).engState = .running ∧
    (0x0000000D#32).getLsbD 0 = true ∧ (0x0000000C#32).getLsbD 0 = false ∧ (0x00000003#32).getLsbD 1 = true ∧
    (0x00000001#32).getLsbD 1 = false ∧ 4 ≤ 31 := by decide

theorem test_meets_StatusReadsAndAcknowledges :
    State.reset.rst = false ∧ State.reset.engState ≠ .running ∧ (lab 4 [] []).engState = .running ∧
    (0x80000000#32).getLsbD 31 = true ∧ (0x7FFFFFFF#32).getLsbD 31 = false := by decide

theorem test_meets_IrqIsALevelOfTheState : State.reset.rst = false ∧ (0x0000000C#32).getLsbD 0 = false := by decide

/-- A reset while a run is in progress, and a host access while the reset is asserted. -/
theorem test_meets_ResetSetsRegistersAndKeepsMemories :
    (lab 4 [(1, 0x57)] []).params.legal = true ∧
    ((lab 4 [(1, 0x57)] []).setSchedule [.assertReset]).schedule = .assertReset :: [] ∧
    after (·.readE 1) (step ((lab 4 [(1, 0x57)] []).setSchedule [.assertReset])) = some 0x00#8 ∧
    (assertReset State.reset).rst = true ∧
    after (·.rst) (step ((assertReset State.reset).setSchedule [.releaseReset])) = some false := by decide

/-- Each kind of event first in the schedule, with another behind it; the read leaves E1 in `hostData`, the narrow write drives
every lane. -/
theorem test_meets_StepPerformsTheScheduledEvent :
    let s := State.reset.writeE 1 0x57
    let with' := fun (ev : Event) => s.setSchedule [ev, .engineCycle]
    s.params.legal = true ∧ (with' (.hostRead 0x104)).schedule = .hostRead 0x104 :: [.engineCycle] ∧
    after (fun t => (t.hostData, t.schedule)) (step (with' (.hostRead 0x104))) = some (0x00000057#32, [.engineCycle]) ∧
    after (·.readE 2) (step (with' (.hostWrite 0x108 0x00000083))) = some 0x83#8 ∧
    after (·.readE 2) (step (with' (.hostWriteNarrow 0x108 0xF 0x00000083))) = some 0x83#8 ∧
    after (·.readE 1) (step (with' .assertReset)) = some 0x00#8 ∧ after (·.rst) (step (with' .releaseReset)) = some false ∧
    after (·.readE 1) (step (with' .engineCycle)) = some 0x57#8 := by decide

end Sys2Proof.Tests
end

section
/-! PROOFS. How an instruction ends, once for all 27, and what it leaves alone on the host's side. -/

namespace Sys2Proof.Machine

variable {s : State}

/-! ## The faults are named -/

/-- The faults of an interpolation are those of 42_lagrange.md R161 and of the bases it is made of. -/
def InterpFault (c : Cause) : Prop := c = .lengthMismatch ∨ c = .duplicateX ∨ c = .zeroInverse

theorem InterpFault.ne_none {c : Cause} (h : InterpFault c) : c ≠ .none := by
  rcases h with rfl | rfl | rfl <;> decide

theorem interpStep_error {xs ys : Poly} {r : Except Cause Poly} (hr : ∀ c, r = .error c → InterpFault c) (i : Nat)
    (c : Cause) (h : interpStep xs ys r i = .error c) : InterpFault c := by
  cases hrr : r with
  | error c' =>
    have hc : c' = c := by simpa [interpStep, hrr] using h
    exact hc ▸ hr c' hrr
  | ok p =>
    cases hl : lagrangeBasis i xs with
    | ok l => simp [interpStep, hrr, hl] at h
    | error c' =>
      have hc : c' = c := by simpa [interpStep, hrr, hl] using h
      exact .inr (.inr (hc ▸ ((lagrangeBasis_eq_error i xs c').1 hl).1))

theorem foldl_interpStep_error (xs ys : Poly) (is : List Nat) (r : Except Cause Poly)
    (hr : ∀ c, r = .error c → InterpFault c) (c : Cause) (h : is.foldl (interpStep xs ys) r = .error c) :
    InterpFault c := by
  induction is generalizing r with
  | nil => exact hr c h
  | cons i is ih => exact ih _ (interpStep_error hr i) h

theorem lagrangeInterp_error {xs ys : Poly} {c : Cause} (h : lagrangeInterp xs ys = .error c) : InterpFault c := by
  unfold lagrangeInterp at h
  split at h
  · exact .inl (Except.error.inj h).symm
  · split at h
    · exact .inr (.inl (Except.error.inj h).symm)
    · exact foldl_interpStep_error xs ys _ (.ok []) (by simp) c h

/-! ## The ends of an instruction -/

/-- Every vector register holds at most VLMAX elements (10_state.md R22). -/
def VectorsFit (s : State) : Prop := ∀ i : VReg, (s.readV i).length ≤ s.params.vlmax

/-- The states an instruction can answer: one register or DMEM write and the default successor, a `pc` of its own, HALT's
DONE, or the stop action at its own `pc`. A vector it writes fits when the vectors it read did, and what it stores lies in
DMEM. -/
inductive Ends (i : Instr) (s : State) : State → Prop where
  | element (d : EReg) (x : Element) : Ends i s ((s.writeE d x).setPc (s.pc + 1#16))
  | vector (d : VReg) (xs : Poly) (fits : VectorsFit s → xs.length ≤ s.params.vlmax) :
      Ends i s ((s.writeV d xs).setPc (s.pc + 1#16))
  | dmem (addr : Nat) (xs : Poly) (inRange : addr + xs.length ≤ s.params.dmemBytes) :
      Ends i s ((s.dmemWrite addr xs).setPc (s.pc + 1#16))
  | control (p : PcValue) : Ends i s (s.setPc p)
  | halt (isHalt : i = .halt) : Ends i s ((s.setEngState .done).setPc (s.pc + 1#16))
  | fault (c : Cause) (named : c ≠ .none) : Ends i s (s.stop c s.pc (encode i))

/-- The result is a next state, and one of those the instruction can answer. -/
def EndsAs (i : Instr) (s : State) (r : Result) : Prop := ∃ t, r = .next t ∧ Ends i s t

section
variable {i : Instr}

theorem endsAs_writeE (d : EReg) (x : Element) : EndsAs i s (s.writeE d x).retire := ⟨_, rfl, .element d x⟩

theorem endsAs_writeV (d : VReg) (xs : Poly) (fits : VectorsFit s → xs.length ≤ s.params.vlmax) :
    EndsAs i s (s.writeV d xs).retire := ⟨_, rfl, .vector d xs fits⟩

theorem endsAs_dmemWrite (addr : Nat) (xs : Poly) (inRange : dmemInRange s.params addr xs.length = true) :
    EndsAs i s (s.dmemWrite addr xs).retire := ⟨_, rfl, .dmem addr xs (by simpa [dmemInRange] using inRange)⟩

theorem endsAs_retire : EndsAs i s s.retire := ⟨_, rfl, .control _⟩

theorem endsAs_jumpTo (p : PcValue) : EndsAs i s (s.jumpTo p) := ⟨_, rfl, .control p⟩

theorem endsAs_raise (c : Cause) (named : c ≠ .none) : EndsAs i s (s.raise c i) := ⟨_, rfl, .fault c named⟩

end

/-! ## The instructions that check before they write -/

theorem execGinv_ends (d a : EReg) : EndsAs (.ginv d a) s (execGinv d a s) := by
  unfold execGinv
  split
  · exact endsAs_writeE d _
  · exact endsAs_raise _ (by decide)

theorem execPmul_ends (d a b : VReg) : EndsAs (.pmul d a b) s (execPmul d a b s) := by
  unfold execPmul
  dsimp only
  split
  · exact endsAs_raise _ (by decide)
  · next hcap =>
    refine endsAs_writeV d _ fun _ => ?_
    rw [length_polyMul]
    split
    · omega
    · have hfit : ¬ ¬ fitsVector s.params ((s.readV a).length + (s.readV b).length - 1) :=
        fun h => hcap ⟨by omega, by omega, h⟩
      simpa [fitsVector] using hfit

theorem execLbasis_ends (d a : VReg) (b : EReg) : EndsAs (.lbasis d a b) s (execLbasis d a b s) := by
  unfold execLbasis
  split
  · exact endsAs_raise _ (by decide)
  · next hlt =>
    split
    · next p hp =>
      exact endsAs_writeV d p fun hv => (length_lagrangeBasis _ _ p (Nat.lt_of_not_le hlt) hp).trans_le (hv a)
    · next c hc =>
      obtain ⟨rfl, _⟩ := (lagrangeBasis_eq_error _ _ c).1 hc
      exact endsAs_raise _ (by decide)

theorem execLinterp_ends (d a b : VReg) : EndsAs (.linterp d a b) s (execLinterp d a b s) := by
  unfold execLinterp
  split
  · next p hp => exact endsAs_writeV d p fun hv => (length_lagrangeInterp_le _ _ p hp).trans (hv a)
  · next c hc => exact endsAs_raise c (lagrangeInterp_error hc).ne_none

theorem execEld_ends (r : EReg) (addr : Nat) : EndsAs (.eld r addr) s (execEld r addr s) := by
  unfold execEld
  split
  · exact endsAs_writeE r _
  · exact endsAs_raise _ (by decide)

theorem execEst_ends (r : EReg) (addr : Nat) : EndsAs (.est r addr) s (execEst r addr s) := by
  unfold execEst
  split
  · next hin => exact endsAs_dmemWrite addr _ hin
  · exact endsAs_raise _ (by decide)

theorem execVld_ends (r : VReg) (len addr : Nat) : EndsAs (.vld r len addr) s (execVld r len addr s) := by
  unfold execVld
  split
  · exact endsAs_raise _ (by decide)
  · next hfit =>
    split
    · exact endsAs_raise _ (by decide)
    · exact endsAs_writeV r _ fun _ => by simpa [fitsVector] using hfit

theorem execVst_ends (r : VReg) (addr : Nat) : EndsAs (.vst r addr) s (execVst r addr s) := by
  unfold execVst
  split
  · next hin => exact endsAs_dmemWrite addr _ hin
  · exact endsAs_raise _ (by decide)

theorem execVget_ends (d : EReg) (a : VReg) (b : EReg) : EndsAs (.vget d a b) s (execVget d a b s) := by
  unfold execVget
  split
  · exact endsAs_writeE d _
  · exact endsAs_raise _ (by decide)

theorem execVset_ends (d : VReg) (a b : EReg) : EndsAs (.vset d a b) s (execVset d a b s) := by
  unfold execVset
  split
  · exact endsAs_raise _ (by decide)
  · exact endsAs_writeV d _ fun hv => by simpa using hv d

theorem execVclr_ends (d : VReg) (len : Nat) : EndsAs (.vclr d len) s (execVclr d len s) := by
  unfold execVclr
  split
  · next hfit => exact endsAs_writeV d _ fun _ => by simpa [fitsVector] using hfit
  · exact endsAs_raise _ (by decide)

theorem execBeq_ends (a b : EReg) (off : Int) : EndsAs (.beq a b off) s (execBeq a b off s) := by
  unfold execBeq
  split
  · exact endsAs_jumpTo _
  · exact endsAs_retire

theorem execBne_ends (a b : EReg) (off : Int) : EndsAs (.bne a b off) s (execBne a b off s) := by
  unfold execBne
  split
  · exact endsAs_retire
  · exact endsAs_jumpTo _

/-! ## Every instruction -/

/-- Every instruction answers a next state, from every state, and it is one of the ends. -/
theorem exec_endsAs (i : Instr) (s : State) : EndsAs i s (exec i s) := by
  cases i with
  | gadd d a b => exact endsAs_writeE d _
  | gneg d a => exact endsAs_writeE d _
  | gmul d a b => exact endsAs_writeE d _
  | ginv d a => exact execGinv_ends d a
  | peval d a b => exact endsAs_writeE d _
  | padd d a b => exact endsAs_writeV d _ fun hv => by simpa using ⟨hv a, hv b⟩
  | pmul d a b => exact execPmul_ends d a b
  | pscale d a b => exact endsAs_writeV d _ fun hv => by simpa using hv a
  | lbasis d a b => exact execLbasis_ends d a b
  | linterp d a b => exact execLinterp_ends d a b
  | eli d imm => exact endsAs_writeE d imm
  | emov d a => exact endsAs_writeE d _
  | einc d a => exact endsAs_writeE d _
  | eld r addr => exact execEld_ends r addr
  | est r addr => exact execEst_ends r addr
  | vld r len addr => exact execVld_ends r len addr
  | vst r addr => exact execVst_ends r addr
  | vmov d a => exact endsAs_writeV d _ fun hv => hv a
  | vlen d a => exact endsAs_writeE d _
  | vget d a b => exact execVget_ends d a b
  | vset d a b => exact execVset_ends d a b
  | vclr d len => exact execVclr_ends d len
  | halt => exact ⟨_, rfl, .halt rfl⟩
  | nop => exact endsAs_retire
  | jmp off => exact endsAs_jumpTo _
  | beq a b off => exact execBeq_ends a b off
  | bne a b off => exact execBne_ends a b off

/-- The inversion rule of `exec`: a next state is one of the ends. -/
theorem exec_ends {i : Instr} {s t : State} (h : exec i s = .next t) : Ends i s t := by
  obtain ⟨u, hu, ends⟩ := exec_endsAs i s
  obtain rfl : u = t := Host.Outcome.next.inj (hu.symm.trans h)
  exact ends

/-! ## What an instruction leaves alone -/

theorem Ends.imem_eq {i : Instr} {t : State} (h : Ends i s t) : t.imem = s.imem := by cases h <;> rfl

theorem Ends.sameHostSide {i : Instr} {t : State} (h : Ends i s t) : SameHostSide s t := by
  cases h <;> exact ⟨rfl, rfl, rfl, rfl, rfl, rfl, rfl, rfl⟩

theorem Ends.engState_of_ne_halt {i : Instr} {t : State} (h : Ends i s t) (hi : i ≠ .halt) :
    t.engState = s.engState ∨ t.engState = .fault := by
  cases h with
  | halt isHalt => exact absurd isHalt hi
  | fault c named => exact .inr rfl
  | _ => exact .inl rfl

/-- Settles O44: each end of an instruction leaves the host's side alone. -/
theorem instructionsLeaveTheHostSideAlone : Obligations.InstructionsLeaveTheHostSideAlone := by
  intro i s t h
  have ends := exec_ends h
  exact ⟨ends.imem_eq, ends.sameHostSide, ends.engState_of_ne_halt⟩

end Sys2Proof.Machine
end

section
/-! PROOFS. The invariant holds at reset and at power-up, and every named update, every end of an instruction, every host
access and every change of `rst` keeps it; so every step does. -/

namespace Sys2Proof.Machine

variable {s : State}

/-! ## Reset and power-up -/

/-- A state whose registers are at their reset values, with legal parameters and canonical memories in range, meets the
invariant, whatever the level of `rst`. -/
theorem invariant_of_resetRegisters (hreset : s.resetRegisters = s) (hp : s.params.legal = true)
    (hi : Memory.wf s.imem = true) (hd : Memory.wf s.dmem = true) (hib : Memory.below s.imem s.params.imemWords = true)
    (hdb : Memory.below s.dmem s.params.dmemBytes = true) : Invariant s where
  params := hp
  lengths i := by rw [← hreset]; simp [State.readV]
  record _ := by rw [← hreset]; exact ⟨rfl, rfl, rfl⟩
  named hf := by rw [← hreset] at hf; exact absurd hf (by simp)
  noAbort _ := by rw [← hreset]; rfl
  heldInReset _ := hreset
  imemWf := hi
  dmemWf := hd
  imemBound := hib
  dmemBound := hdb

/-- Settles O48: power-up and reset states have their registers at the reset values. -/
theorem resetMeetsTheInvariant : Obligations.ResetMeetsTheInvariant := by
  have powerUp : ∀ (p : Params) (imem : List (Nat × Word)) (dmem : List Host.Cell), p.legal = true →
      Memory.wf imem = true → Memory.wf dmem = true → Memory.below imem p.imemWords = true →
      Memory.below dmem p.dmemBytes = true → Invariant (State.powerUp p imem dmem) :=
    fun _ _ _ hp hi hd hib hdb => invariant_of_resetRegisters rfl hp hi hd hib hdb
  exact ⟨powerUp Params.default [] [] (by decide) rfl rfl rfl rfl, powerUp⟩

/-! ## The named updates, with `rst` released -/

namespace Invariant

/-- With `rst` released nothing is asked of the registers' reset values. -/
theorem heldInReset_of_released {t : State} (hr : t.rst = false) : t.rst = true → t.resetRegisters = t :=
  fun h => absurd h (by simp [hr])

theorem writeE (h : Invariant s) (hr : s.rst = false) (d : EReg) (x : Element) : Invariant (s.writeE d x) :=
  { h with heldInReset := heldInReset_of_released hr }

theorem writeV (h : Invariant s) (hr : s.rst = false) (d : VReg) (xs : Poly) (hx : xs.length ≤ s.params.vlmax) :
    Invariant (s.writeV d xs) :=
  { h with
    lengths := forall_readV_writeV s (fun ys => ys.length ≤ s.params.vlmax) d xs hx h.lengths
    heldInReset := heldInReset_of_released hr }

theorem setPc (h : Invariant s) (hr : s.rst = false) (p : PcValue) : Invariant (s.setPc p) :=
  { h with heldInReset := heldInReset_of_released hr }

theorem dmemWrite (h : Invariant s) (hr : s.rst = false) (addr : Nat) (xs : Poly)
    (hin : addr + xs.length ≤ s.params.dmemBytes) : Invariant (s.dmemWrite addr xs) :=
  { h with
    heldInReset := heldInReset_of_released hr
    dmemWf := wf_dmemWrite s addr xs h.dmemWf
    dmemBound := below_dmemWrite s addr _ xs hin h.dmemBound }

theorem imemWrite (h : Invariant s) (hr : s.rst = false) (k : Nat) (w : Word) (hk : k < s.params.imemWords) :
    Invariant (s.imemWrite k w) :=
  { h with
    heldInReset := heldInReset_of_released hr
    imemWf := wf_imemWrite s k w h.imemWf
    imemBound := below_imemWrite s k _ w hk h.imemBound }

theorem setEnables (h : Invariant s) (hr : s.rst = false) (done fault : Bool) : Invariant (s.setEnables done fault) :=
  { h with heldInReset := heldInReset_of_released hr }

theorem noteAccessError (h : Invariant s) (hr : s.rst = false) : Invariant s.noteAccessError :=
  { h with heldInReset := heldInReset_of_released hr }

/-- HALT ends a run that has no abort pending. -/
theorem setDone (h : Invariant s) (hr : s.rst = false) (hrun : s.engState = .running) (ha : s.abortPending = false) :
    Invariant (s.setEngState .done) :=
  { h with
    record := fun _ => h.record (by simp [hrun])
    named := fun hf => absurd hf (by simp)
    noAbort := fun _ => ha
    heldInReset := heldInReset_of_released hr }

theorem stop (h : Invariant s) (hr : s.rst = false) (c : Cause) (p : PcValue) (w : Word) (hc : c ≠ .none) :
    Invariant (s.stop c p w) :=
  { h with
    record := fun hf => absurd rfl hf
    named := fun _ => hc
    noAbort := fun _ => rfl
    heldInReset := heldInReset_of_released hr }

theorem start (h : Invariant s) (hr : s.rst = false) : Invariant s.start :=
  { h with
    record := fun _ => ⟨rfl, rfl, rfl⟩
    named := fun hf => absurd hf (by simp)
    noAbort := fun _ => rfl
    heldInReset := heldInReset_of_released hr }

theorem acknowledge (h : Invariant s) (hr : s.rst = false) (hrun : s.engState ≠ .running) : Invariant s.acknowledge :=
  { h with
    record := fun _ => ⟨rfl, rfl, rfl⟩
    named := fun hf => absurd hf (by simp)
    noAbort := fun _ => h.noAbort hrun
    heldInReset := heldInReset_of_released hr }

theorem requestAbort (h : Invariant s) (hr : s.rst = false) (hrun : s.engState = .running) : Invariant s.requestAbort :=
  { h with
    noAbort := fun hn => absurd hrun hn
    heldInReset := heldInReset_of_released hr }

/-! ## The model's own fields and `rst` -/

theorem setSchedule (h : Invariant s) (evs : List Event) : Invariant (s.setSchedule evs) :=
  { h with heldInReset := fun hr => congrArg (·.setSchedule evs) (h.heldInReset hr) }

theorem setHostData (h : Invariant s) (data : Word) : Invariant (s.setHostData data) :=
  { h with heldInReset := fun hr => congrArg (·.setHostData data) (h.heldInReset hr) }

theorem setFreeDraws (h : Invariant s) (n : Nat) : Invariant (s.setFreeDraws n) :=
  { h with heldInReset := fun hr => congrArg (·.setFreeDraws n) (h.heldInReset hr) }

theorem assertReset (h : Invariant s) : Invariant (assertReset s) :=
  invariant_of_resetRegisters rfl h.params h.imemWf h.dmemWf h.imemBound h.dmemBound

theorem releaseReset (h : Invariant s) : Invariant (releaseReset s) :=
  { h with heldInReset := heldInReset_of_released rfl }

/-! ## The engine -/

/-- Every end of an instruction of a running engine keeps the invariant. -/
theorem ends (h : Invariant s) (hr : s.rst = false) (hrun : s.engState = .running) (ha : s.abortPending = false)
    {i : Instr} {t : State} (he : Ends i s t) : Invariant t := by
  cases he with
  | element d x => exact (h.writeE hr d x).setPc hr _
  | vector d xs fits => exact (h.writeV hr d xs (fits h.lengths)).setPc hr _
  | dmem addr xs inRange => exact (h.dmemWrite hr addr xs inRange).setPc hr _
  | control p => exact h.setPc hr p
  | halt _ => exact (h.setDone hr hrun ha).setPc hr _
  | fault c named => exact h.stop hr c _ _ named

theorem engineCycle (h : Invariant s) (hr : s.rst = false) (hrun : s.engState = .running) {t : State}
    (ht : engineCycle s = .next t) : Invariant t := by
  rcases engineCycle_cases s with ⟨_, hc⟩ | ⟨_, _, hc⟩ | ⟨_, _, _, hc⟩ | ⟨ha, _, i, _, hc⟩ <;> rw [hc] at ht
  · exact Host.Outcome.next.inj ht ▸ h.stop hr _ _ _ (by decide)
  · exact Host.Outcome.next.inj ht ▸ h.stop hr _ _ _ (by decide)
  · exact Host.Outcome.next.inj ht ▸ h.stop hr _ _ _ (by decide)
  · exact h.ends hr hrun ha (exec_ends ht)

theorem engineTurn (h : Invariant s) {t : State} (ht : engineTurn s = .next t) : Invariant t := by
  rcases engineTurn_cases s with ⟨hr, hrun, hturn⟩ | ⟨_, hturn⟩ <;> rw [hturn] at ht
  · exact h.engineCycle hr hrun ht
  · exact Host.Outcome.next.inj ht ▸ h

/-! ## The host -/

theorem hostRead (h : Invariant s) (off : HostOffset) : Invariant (s.hostRead off).2 := by
  rcases hostRead_cases s off with ⟨_, he⟩ | ⟨hr, _, _, he⟩ | ⟨_, _, he⟩ <;> rw [he]
  · exact h
  · exact h.noteAccessError hr
  · exact h

theorem writeCtrl (h : Invariant s) (hr : s.rst = false) (data : Word) : Invariant (s.writeCtrl data) := by
  have ht := h.setEnables hr (data.getLsbD 2) (data.getLsbD 3)
  rcases writeCtrl_cases s data with ⟨hrun, _, he⟩ | ⟨_, _, he⟩ | ⟨_, _, he⟩ <;> rw [he]
  · exact ht.requestAbort hr hrun
  · exact ht.start hr
  · exact ht

theorem writeStatus (h : Invariant s) (hr : s.rst = false) (data : Word) : Invariant (s.writeStatus data) := by
  rcases writeStatus_cases s data with ⟨hrun, _, he⟩ | ⟨_, he⟩ <;> rw [he]
  · exact h.acknowledge hr hrun
  · exact h

end Invariant

/-- A window word the map answers lies inside its memory (20_memory.md R68, R69). -/
def HostTarget.InMemory (p : Params) : HostTarget → Prop
  | .dmem k => 4 * k + 3 < p.dmemBytes
  | .imem k => k < p.imemWords
  | _ => True

theorem hostRegister_inMemory (p : Params) (w : Nat) : (hostRegister w).InMemory p := by
  unfold hostRegister
  split <;> trivial

theorem hostTarget_inMemory (p : Params) (off : HostOffset) : (hostTarget p off).InMemory p := by
  unfold hostTarget
  dsimp only
  split
  · trivial
  · split
    · split
      · next hlt => exact hlt
      · trivial
    · split
      · split
        · next hlt => exact hlt
        · trivial
      · exact hostRegister_inMemory p _

namespace Invariant

theorem hostStore (h : Invariant s) (hr : s.rst = false) (data : Word) (g : HostTarget) (hg : g.InMemory s.params) :
    Invariant (s.hostStore data g) := by
  cases g with
  | ctrl => exact h.writeCtrl hr data
  | status => exact h.writeStatus hr data
  | pc => exact h.setPc hr _
  | ereg k => exact h.writeE hr k _
  | dmem k => exact h.dmemWrite hr (4 * k) (lanes data) hg
  | imem k => exact h.imemWrite hr k data hg
  | id | faultPc | faultInstr | config0 | config1 | unmapped => exact h

theorem hostWrite (h : Invariant s) (off : HostOffset) (data : Word) : Invariant (s.hostWrite off data) := by
  rcases hostWrite_cases s off data with ⟨_, he⟩ | ⟨hr, _, _, he⟩ | ⟨hr, _, he⟩ <;> rw [he]
  · exact h
  · exact h.noteAccessError hr
  · exact h.hostStore hr data _ (hostTarget_inMemory s.params off)

/-! ## The step -/

theorem takeEvent (h : Invariant s) (ev : Event) {t : State} (ht : takeEvent ev s = .next t) : Invariant t := by
  cases ev with
  | engineCycle => exact h.engineTurn ht
  | hostRead off => exact Host.Outcome.next.inj ht ▸ (h.hostRead off).setHostData _
  | hostWrite off data => exact Host.Outcome.next.inj ht ▸ h.hostWrite off data
  | hostWriteNarrow off drives data => exact Host.Outcome.next.inj ht ▸ (h.hostWrite off _).setFreeDraws _
  | assertReset => exact Host.Outcome.next.inj ht ▸ h.assertReset
  | releaseReset => exact Host.Outcome.next.inj ht ▸ h.releaseReset

end Invariant

/-- Settles O49, by the first event of the schedule, or the engine's turn when there is none. -/
theorem everyStepKeepsTheInvariant : Obligations.EveryStepKeepsTheInvariant := by
  intro s t h ht
  rw [step_of_legal s h.params] at ht
  cases hs : s.schedule with
  | nil =>
    rw [hs] at ht
    exact h.engineTurn ht
  | cons ev rest =>
    rw [hs] at ht
    exact (h.setSchedule rest).takeEvent ev ht

end Sys2Proof.Machine
end

section
/-! PROOFS. What a step leaves alone whatever it is, and what the scheduled event of a step is. -/

namespace Sys2Proof.Machine

variable {s : State}

/-! ## The parameters never change -/

theorem engineCycle_params {t : State} (h : engineCycle s = .next t) : t.params = s.params := by
  rcases engineCycle_cases s with ⟨_, hc⟩ | ⟨_, _, hc⟩ | ⟨_, _, _, hc⟩ | ⟨_, _, i, _, hc⟩ <;> rw [hc] at h
  · exact Host.Outcome.next.inj h ▸ rfl
  · exact Host.Outcome.next.inj h ▸ rfl
  · exact Host.Outcome.next.inj h ▸ rfl
  · exact (exec_ends h).sameHostSide.1

theorem engineTurn_params {t : State} (h : engineTurn s = .next t) : t.params = s.params := by
  rcases engineTurn_cases s with ⟨_, _, hturn⟩ | ⟨_, hturn⟩ <;> rw [hturn] at h
  · exact engineCycle_params h
  · exact Host.Outcome.next.inj h ▸ rfl

theorem takeEvent_params {ev : Event} {t : State} (h : takeEvent ev s = .next t) : t.params = s.params := by
  cases ev with
  | engineCycle => exact engineTurn_params h
  | hostRead off => exact Host.Outcome.next.inj h ▸ (hostRead_beyond s off).1
  | hostWrite off data => exact Host.Outcome.next.inj h ▸ (hostWrite_beyond s off data).1
  | hostWriteNarrow off drives data => exact Host.Outcome.next.inj h ▸ (hostWrite_beyond s off _).1
  | assertReset => exact Host.Outcome.next.inj h ▸ rfl
  | releaseReset => exact Host.Outcome.next.inj h ▸ rfl

theorem step_params {t : State} (h : step s = .next t) : t.params = s.params := by
  cases hl : s.params.legal with
  | false => rw [step_of_illegal s hl] at h; exact absurd h (by simp)
  | true =>
    rw [step_of_legal s hl] at h
    cases hs : s.schedule with
    | nil => rw [hs] at h; exact engineTurn_params h
    | cons ev rest =>
      rw [hs] at h
      exact (takeEvent_params h).trans (setSchedule_params s rest)

/-! ## The scheduled event -/

/-- A step takes the first event of its schedule, on the state with the rest of it. -/
theorem step_of_schedule {ev : Event} {rest : List Event} (hl : s.params.legal = true) (hs : s.schedule = ev :: rest) :
    step s = takeEvent ev (s.setSchedule rest) := by
  rw [step_of_legal s hl, hs]

/-- Settles O59: each event's arm of `takeEvent`, on the state `step_of_schedule` names. -/
theorem stepPerformsTheScheduledEvent : Obligations.StepPerformsTheScheduledEvent := by
  intro s rest hl u
  exact ⟨fun _ hs => step_of_schedule hl hs, fun _ _ hs => step_of_schedule hl hs,
    fun _ _ _ hs => step_of_schedule hl hs, fun hs => step_of_schedule hl hs, fun hs => step_of_schedule hl hs,
    fun hs => step_of_schedule hl hs⟩

end Sys2Proof.Machine
end

section
/-! PROOFS. The fixed registers of the host window: where they are, when an access reaches them, and what ID, CTRL, STATUS,
PC, the fault record and the configuration words read and take. -/

namespace Sys2Proof.Machine

variable {s : State}

/-! ## When an access reaches its target -/

section
variable {off : HostOffset} {g : HostTarget}

theorem hostRead_of_not_locked (hr : s.rst = false) (ht : hostTarget s.params off = g)
    (hl : s.engState = .running → g.isLockable = false) : s.hostRead off = (s.hostValue g, s) := by
  subst ht
  rcases hostRead_cases s off with ⟨hr', _⟩ | ⟨_, hrun, hlock, _⟩ | ⟨_, _, h⟩
  · exact absurd (hr.symm.trans hr') (by decide)
  · exact absurd ((hl hrun).symm.trans hlock) (by decide)
  · exact h

theorem hostWrite_of_not_locked (hr : s.rst = false) (ht : hostTarget s.params off = g)
    (hl : s.engState = .running → g.isLockable = false) (data : Word) : s.hostWrite off data = s.hostStore data g := by
  subst ht
  rcases hostWrite_cases s off data with ⟨hr', _⟩ | ⟨_, hrun, hlock, _⟩ | ⟨_, _, h⟩
  · exact absurd (hr.symm.trans hr') (by decide)
  · exact absurd ((hl hrun).symm.trans hlock) (by decide)
  · exact h

theorem hostRead_of_locked (hr : s.rst = false) (ht : hostTarget s.params off = g) (hl : g.isLockable = true)
    (hrun : s.engState = .running) : s.hostRead off = (0#32, s.noteAccessError) := by
  subst ht
  rcases hostRead_cases s off with ⟨hr', _⟩ | ⟨_, _, _, h⟩ | ⟨_, hfree, _⟩
  · exact absurd (hr.symm.trans hr') (by decide)
  · exact h
  · exact absurd ((hfree hrun).symm.trans hl) (by decide)

theorem hostWrite_of_locked (hr : s.rst = false) (ht : hostTarget s.params off = g) (hl : g.isLockable = true)
    (hrun : s.engState = .running) (data : Word) : s.hostWrite off data = s.noteAccessError := by
  subst ht
  rcases hostWrite_cases s off data with ⟨hr', _⟩ | ⟨_, _, _, h⟩ | ⟨_, hfree, _⟩
  · exact absurd (hr.symm.trans hr') (by decide)
  · exact h
  · exact absurd ((hfree hrun).symm.trans hl) (by decide)

/-- A read of a register that is never locked gives its value and changes nothing, in every engine state. -/
theorem hostRead_register (hr : s.rst = false) (ht : hostTarget s.params off = g) (hl : g.isLockable = false) :
    s.hostRead off = (s.hostValue g, s) := hostRead_of_not_locked hr ht fun _ => hl

/-- A write to a register that is never locked is the store of its target, in every engine state. -/
theorem hostWrite_register (hr : s.rst = false) (ht : hostTarget s.params off = g) (hl : g.isLockable = false)
    (data : Word) : s.hostWrite off data = s.hostStore data g := hostWrite_of_not_locked hr ht (fun _ => hl) data

end

/-! ## The offsets of the fixed registers (20_memory.md R66) -/

section
variable (p : Params)

theorem hostTarget_id : hostTarget p 0x0000#14 = .id := rfl
theorem hostTarget_ctrl : hostTarget p 0x0004#14 = .ctrl := rfl
theorem hostTarget_status : hostTarget p 0x0008#14 = .status := rfl
theorem hostTarget_pc : hostTarget p 0x000C#14 = .pc := rfl
theorem hostTarget_faultPc : hostTarget p 0x0010#14 = .faultPc := rfl
theorem hostTarget_faultInstr : hostTarget p 0x0014#14 = .faultInstr := rfl
theorem hostTarget_config0 : hostTarget p 0x0018#14 = .config0 := rfl
theorem hostTarget_config1 : hostTarget p 0x001C#14 = .config1 := rfl

end

/-! ## The fields of the composed words -/

theorem config0Word_vlmax (p : Params) : (config0Word p).extractLsb' 0 8 = BitVec.ofNat 8 p.vlmax :=
  BitVec.extractLsb'_append_eq_right

theorem config0Word_reserved (p : Params) : (config0Word p).extractLsb' 8 8 = 0x00#8 := by
  rw [config0Word, BitVec.extractLsb'_append_eq_of_le (by decide)]
  exact BitVec.extractLsb'_append_eq_right

theorem config0Word_imemWords (p : Params) : (config0Word p).extractLsb' 16 16 = BitVec.ofNat 16 p.imemWords := by
  rw [config0Word, BitVec.extractLsb'_append_eq_of_le (by decide)]
  exact BitVec.extractLsb'_append_eq_left

theorem config1Word_dmemBytes (p : Params) : (config1Word p).extractLsb' 0 16 = BitVec.ofNat 16 p.dmemBytes :=
  BitVec.extractLsb'_append_eq_right

theorem config1Word_reserved (p : Params) : (config1Word p).extractLsb' 16 16 = 0x0000#16 :=
  BitVec.extractLsb'_append_eq_left

/-- Bit `k` of CTRL, by the field it falls in. -/
theorem ctrlWord_getLsbD (s : State) (k : Nat) : s.ctrlWord.getLsbD k =
    if k < 2 then false else if k = 2 then s.ieDone else if k = 3 then s.ieFault else false := by
  simp only [State.ctrlWord, BitVec.getLsbD_append, BitVec.getLsbD_zero, BitVec.getLsbD_ofBool]
  split
  · rfl
  · next h2 =>
    by_cases e2 : k = 2
    · simp [e2]
    · by_cases e3 : k = 3
      · simp [e3]
      · have h1 : ¬ k - 2 < 1 := by omega
        have h0 : ¬ k - 2 - 1 < 1 := by omega
        simp [e2, e3, h1, h0]

theorem statusWord_state (s : State) : s.statusWord.extractLsb' 0 2 = s.engState.code :=
  BitVec.extractLsb'_append_eq_right

theorem statusWord_irq (s : State) : s.statusWord.getLsbD 2 = s.irq := by
  simp only [State.statusWord, BitVec.getLsbD_append]
  simp

theorem statusWord_accErr (s : State) : s.statusWord.getLsbD 3 = s.accErr := by
  simp only [State.statusWord, BitVec.getLsbD_append]
  simp

theorem statusWord_abortPending (s : State) : s.statusWord.getLsbD 4 = s.abortPending := by
  simp only [State.statusWord, BitVec.getLsbD_append]
  simp

theorem statusWord_reserved (s : State) : s.statusWord.extractLsb' 5 3 = 0#3 := by
  simp only [State.statusWord, BitVec.extractLsb'_append_eq_ite]
  simp

theorem statusWord_cause (s : State) : s.statusWord.extractLsb' 8 8 = s.cause.code := by
  simp only [State.statusWord, BitVec.extractLsb'_append_eq_ite]
  simp

theorem statusWord_ack (s : State) : s.statusWord.extractLsb' 16 16 = 0x0000#16 := by
  simp only [State.statusWord, BitVec.extractLsb'_append_eq_ite]
  simp

/-- At power-up CTRL reads 0. -/
theorem ctrlWord_powerUp (p : Params) (imem : List (Nat × Word)) (dmem : List Host.Cell) :
    (State.powerUp p imem dmem).ctrlWord = 0x00000000#32 := by
  simp [State.ctrlWord, State.powerUp]

/-- At power-up STATUS reads 0: IDLE, no interrupt, no cause. -/
theorem statusWord_powerUp (p : Params) (imem : List (Nat × Word)) (dmem : List Host.Cell) :
    (State.powerUp p imem dmem).statusWord = 0x00000000#32 := by
  simp [State.statusWord, State.irq, EngState.code, Cause.code, State.powerUp]

/-! ## Writes to CTRL and STATUS, case by case (60_exceptions.md R250 to R253) -/

theorem writeCtrl_start (hrun : s.engState ≠ .running) {data : Word} (h : data.getLsbD 0 = true) :
    s.writeCtrl data = (s.setEnables (data.getLsbD 2) (data.getLsbD 3)).start := by
  rcases writeCtrl_cases s data with ⟨hr, _⟩ | ⟨_, _, he⟩ | ⟨_, h0, _⟩
  · exact absurd hr hrun
  · exact he
  · exact absurd ((h0 hrun).symm.trans h) (by decide)

theorem writeCtrl_abort (hrun : s.engState = .running) {data : Word} (h : data.getLsbD 1 = true) :
    s.writeCtrl data = (s.setEnables (data.getLsbD 2) (data.getLsbD 3)).requestAbort := by
  rcases writeCtrl_cases s data with ⟨_, _, he⟩ | ⟨hn, _⟩ | ⟨h1, _⟩
  · exact he
  · exact absurd hrun hn
  · exact absurd ((h1 hrun).symm.trans h) (by decide)

theorem writeCtrl_enables_only {data : Word} (h1 : s.engState = .running → data.getLsbD 1 = false)
    (h0 : s.engState ≠ .running → data.getLsbD 0 = false) :
    s.writeCtrl data = s.setEnables (data.getLsbD 2) (data.getLsbD 3) := by
  rcases writeCtrl_cases s data with ⟨hrun, h, _⟩ | ⟨hn, h, _⟩ | ⟨_, _, he⟩
  · exact absurd ((h1 hrun).symm.trans h) (by decide)
  · exact absurd ((h0 hn).symm.trans h) (by decide)
  · exact he

theorem writeStatus_ack (hrun : s.engState ≠ .running) {data : Word} (h : data.getLsbD 31 = true) :
    s.writeStatus data = s.acknowledge := by
  rcases writeStatus_cases s data with ⟨_, _, he⟩ | ⟨h31, _⟩
  · exact he
  · exact absurd ((h31 hrun).symm.trans h) (by decide)

theorem writeStatus_ignored {data : Word} (h : s.engState ≠ .running → data.getLsbD 31 = false) :
    s.writeStatus data = s := by
  rcases writeStatus_cases s data with ⟨hrun, h31, _⟩ | ⟨_, he⟩
  · exact absurd ((h hrun).symm.trans h31) (by decide)
  · exact he

/-! ## The registers -/

/-- Settles O54: PC is the one register of the six that is locked while RUNNING; the others read their fields in every engine
state and take no write. -/
theorem fixedRegistersReadTheirFields : Obligations.FixedRegistersReadTheirFields := by
  refine ⟨fun s t h => step_params h, fun p imem dmem => ⟨rfl, rfl, rfl⟩, fun s hr => ?_⟩
  have pcIdle : s.engState ≠ .running → s.hostRead 0x000C#14 = (BitVec.setWidth 32 s.pc, s) ∧
      ∀ data : Word, s.hostWrite 0x000C#14 data = s.setPc (data.extractLsb' 0 16) := fun hn =>
    ⟨hostRead_of_not_locked hr (hostTarget_pc _) fun hrun => absurd hrun hn,
      hostWrite_of_not_locked hr (hostTarget_pc _) fun hrun => absurd hrun hn⟩
  have pcLocked : s.engState = .running → s.hostRead 0x000C#14 = (0x00000000#32, s.noteAccessError) ∧
      ∀ data : Word, s.hostWrite 0x000C#14 data = s.noteAccessError := fun hrun =>
    ⟨hostRead_of_locked hr (hostTarget_pc _) rfl hrun, hostWrite_of_locked hr (hostTarget_pc _) rfl hrun⟩
  have readOnly : ∀ data : Word, s.hostWrite 0x0000#14 data = s ∧ s.hostWrite 0x0010#14 data = s ∧
      s.hostWrite 0x0014#14 data = s ∧ s.hostWrite 0x0018#14 data = s ∧ s.hostWrite 0x001C#14 data = s := fun data =>
    ⟨hostWrite_register hr (hostTarget_id _) rfl data, hostWrite_register hr (hostTarget_faultPc _) rfl data,
      hostWrite_register hr (hostTarget_faultInstr _) rfl data, hostWrite_register hr (hostTarget_config0 _) rfl data,
      hostWrite_register hr (hostTarget_config1 _) rfl data⟩
  exact ⟨hostRead_register hr (hostTarget_id _) rfl, pcIdle, pcLocked,
    hostRead_register hr (hostTarget_faultPc _) rfl, hostRead_register hr (hostTarget_faultInstr _) rfl,
    ⟨_, hostRead_register hr (hostTarget_config0 _) rfl, config0Word_vlmax _, config0Word_reserved _,
      config0Word_imemWords _⟩,
    ⟨_, hostRead_register hr (hostTarget_config1 _) rfl, config1Word_dmemBytes _, config1Word_reserved _⟩, readOnly⟩

/-- Settles O55: the bits of the CTRL word, and the cases of a CTRL write. -/
theorem ctrlStartsAndAborts : Obligations.CtrlStartsAndAborts := by
  intro s data hr
  have write : s.hostWrite 0x0004#14 data = s.writeCtrl data := hostWrite_register hr (hostTarget_ctrl _) rfl data
  rw [write]
  have reserved : ∀ k, 4 ≤ k → s.ctrlWord.getLsbD k = false := fun k hk => by
    rw [ctrlWord_getLsbD, if_neg (by omega), if_neg (by omega), if_neg (by omega)]
  refine ⟨⟨s.ctrlWord, hostRead_register hr (hostTarget_ctrl _) rfl, ctrlWord_getLsbD s 0, ctrlWord_getLsbD s 1,
    ctrlWord_getLsbD s 2, ctrlWord_getLsbD s 3, reserved⟩, fun hn h => writeCtrl_start hn h, fun hn h0 => ?_,
    fun hrun h => writeCtrl_abort hrun h, fun hrun h1 => ?_, ctrlWord_powerUp⟩
  · exact writeCtrl_enables_only (fun hrun => absurd hrun hn) fun _ => h0
  · exact writeCtrl_enables_only (fun _ => h1) fun hn => absurd hrun hn

/-- Settles O56: the codes, the fields of the STATUS word, and the cases of a STATUS write. -/
theorem statusReadsAndAcknowledges : Obligations.StatusReadsAndAcknowledges := by
  refine ⟨⟨rfl, rfl, rfl, rfl⟩, ⟨rfl, rfl, rfl, rfl, rfl, rfl, rfl, rfl, rfl, rfl⟩, fun s data hr => ?_⟩
  have write : s.hostWrite 0x0008#14 data = s.writeStatus data := hostWrite_register hr (hostTarget_status _) rfl data
  rw [write]
  exact ⟨⟨s.statusWord, hostRead_register hr (hostTarget_status _) rfl, statusWord_state s, statusWord_irq s,
    statusWord_accErr s, statusWord_abortPending s, statusWord_reserved s, statusWord_cause s, statusWord_ack s⟩,
    fun hn h => writeStatus_ack hn h, fun hrun => writeStatus_ignored fun hn => absurd hrun hn,
    fun h31 => writeStatus_ignored fun _ => h31, statusWord_powerUp⟩

end Sys2Proof.Machine
end

section
/-! PROOFS. What VST stores VLD loads back (20_memory.md R60, R78). -/

namespace Sys2Proof.Machine

variable {s : State}

/-- VST of a vector that lies in DMEM (43_data_movement.md R187). -/
theorem exec_vst_of_inRange {r : VReg} {addr : Nat} (h : addr + (s.readV r).length ≤ s.params.dmemBytes) :
    exec (.vst r addr) s = (s.dmemWrite addr (s.readV r)).retire :=
  if_pos (decide_eq_true h)

/-- VLD of a length that fits VLMAX, from a range that lies in DMEM (43_data_movement.md R186). -/
theorem exec_vld_of_fits {d : VReg} {len addr : Nat} (hlen : len ≤ s.params.vlmax)
    (hin : addr + len ≤ s.params.dmemBytes) : exec (.vld d len addr) s = (s.writeV d (s.dmemRead addr len)).retire := by
  have hfit : fitsVector s.params len = true := decide_eq_true hlen
  have hrange : dmemInRange s.params addr len = true := decide_eq_true hin
  exact (if_neg (not_not.2 hfit)).trans (if_neg (not_not.2 hrange))

/-- Settles O28: VST leaves the parameters alone, so VLD completes on the same length and address, and what was stored is
read back. -/
theorem storedSequenceLoadsBack : Obligations.StoredSequenceLoadsBack := by
  intro r d addr s hin hlen
  refine ⟨(s.dmemWrite addr (s.readV r)).setPc (s.pc + 1#16), _, exec_vst_of_inRange hin, exec_vld_of_fits hlen hin, ?_,
    dmemByte_dmemWrite_inside s addr (s.readV r)⟩
  exact (readV_writeV_same _ d _).trans (dmemRead_dmemWrite s addr (s.readV r))

end Sys2Proof.Machine
end

section
/-! PROOFS. The host window word by word: what each word index reaches (20_memory.md R65 to R69), the lanes of a word (R62),
and the accesses to locked, unmapped and mapped words (R67 to R71). -/

namespace Sys2Proof.Machine

variable {s : State}

/-! ## The target of a word (20_memory.md R65, R66, R68, R69) -/

section
variable (p : Params) {off off' : HostOffset} {k : Nat}

theorem hostTarget_eq_of_same_word (h : off.toNat / 4 = off'.toNat / 4) : hostTarget p off = hostTarget p off' := by
  unfold hostTarget
  simp only [h]

theorem hostTarget_ereg (k : EReg) (h : off.toNat / 4 = 64 + k) : hostTarget p off = .ereg k := by
  have hw : 64 ≤ off.toNat / 4 ∧ off.toNat / 4 < 80 := by omega
  refine (dif_pos hw).trans (congrArg HostTarget.ereg (Fin.ext ?_))
  show off.toNat / 4 - 64 = k
  omega

theorem hostTarget_dmem (h : off.toNat / 4 = 1024 + k) (hk : k < 1024) :
    hostTarget p off = if 4 * k + 3 < p.dmemBytes then .dmem k else .unmapped := by
  have hw : off.toNat / 4 - 1024 = k := by omega
  unfold hostTarget
  dsimp only
  rw [dif_neg (by omega), if_pos (by omega), hw]

theorem hostTarget_imem (h : off.toNat / 4 = 2048 + k) :
    hostTarget p off = if k < p.imemWords then .imem k else .unmapped := by
  have hw : off.toNat / 4 - 2048 = k := by omega
  unfold hostTarget
  dsimp only
  rw [dif_neg (by omega), if_neg (by omega), if_pos (by omega), hw]

theorem hostRegister_unmapped (h : 8 ≤ k) : hostRegister k = .unmapped := by
  unfold hostRegister
  split
  case h_9 => rfl
  all_goals omega

/-- The two unmapped ranges below the DMEM window, one on each side of EREG. -/
theorem hostTarget_gap (h : 8 ≤ off.toNat / 4 ∧ off.toNat / 4 < 64 ∨ 80 ≤ off.toNat / 4 ∧ off.toNat / 4 < 1024) :
    hostTarget p off = .unmapped := by
  unfold hostTarget
  dsimp only
  rw [dif_neg (by omega), if_neg (by omega), if_neg (by omega)]
  exact hostRegister_unmapped (by omega)

end

theorem hostTarget_isLockable_of_lockedOffset {p : Params} {off : HostOffset} (h : LockedOffset p off) :
    (hostTarget p off).isLockable = true := by
  rcases h with ⟨hlo, hhi⟩ | ⟨hlo, hhi⟩ | ⟨hlo, hhi, hmapped⟩ | ⟨hlo, hmapped⟩
  · have hpc : off.toNat / 4 = (0x000C#14 : HostOffset).toNat / 4 := by
      show off.toNat / 4 = 3
      omega
    rw [hostTarget_eq_of_same_word p hpc, hostTarget_pc]
    rfl
  · rw [hostTarget_ereg p ⟨off.toNat / 4 - 64, by omega⟩ (by dsimp only; omega)]
    rfl
  · rw [hostTarget_dmem p (k := (off.toNat - 0x1000) / 4) (by omega) (by omega), if_pos hmapped]
    rfl
  · rw [hostTarget_imem p (k := (off.toNat - 0x2000) / 4) (by omega), if_pos hmapped]
    rfl

theorem hostTarget_of_unmappedOffset {p : Params} {off : HostOffset} (h : UnmappedOffset p off) :
    hostTarget p off = .unmapped := by
  rcases h with ⟨hlo, hhi⟩ | ⟨hlo, hhi⟩ | ⟨hlo, hhi, hbeyond⟩ | ⟨hlo, hbeyond⟩
  · exact hostTarget_gap p (.inl (by omega))
  · exact hostTarget_gap p (.inr (by omega))
  · rw [hostTarget_dmem p (k := (off.toNat - 0x1000) / 4) (by omega) (by omega), if_neg (by omega)]
  · rw [hostTarget_imem p (k := (off.toNat - 0x2000) / 4) (by omega), if_neg (by omega)]

/-! ## The locked and the unmapped words -/

theorem hostRead_of_mayTouch {off : HostOffset} {g : HostTarget} (hs : HostMayTouch s) (ht : hostTarget s.params off = g) :
    s.hostRead off = (s.hostValue g, s) := hostRead_of_not_locked hs.1 ht fun hrun => absurd hrun hs.2

theorem hostWrite_of_mayTouch {off : HostOffset} {g : HostTarget} (hs : HostMayTouch s) (ht : hostTarget s.params off = g)
    (data : Word) : s.hostWrite off data = s.hostStore data g :=
  hostWrite_of_not_locked hs.1 ht (fun hrun => absurd hrun hs.2) data

/-- Settles O50: every locked offset reaches a lockable target. -/
theorem lockedAccessOnlySetsAccErr : Obligations.LockedAccessOnlySetsAccErr := by
  intro s off data hlocked hr
  have hl := hostTarget_isLockable_of_lockedOffset hlocked
  exact ⟨fun hrun => ⟨hostRead_of_locked hr rfl hl hrun, hostWrite_of_locked hr rfl hl hrun data⟩,
    fun hn => ⟨hostRead_of_mayTouch ⟨hr, hn⟩ rfl, hostWrite_of_mayTouch ⟨hr, hn⟩ rfl data⟩⟩

/-- Settles O51: an unmapped word is never locked, reads 0 and stores nothing; while `rst` is asserted no access has an
effect anyway. -/
theorem unmappedAccessHasNoEffect : Obligations.UnmappedAccessHasNoEffect := by
  intro s off data _ hun
  have ht := hostTarget_of_unmappedOffset hun
  cases hr : s.rst with
  | false => exact ⟨hostRead_register hr ht rfl, hostWrite_register hr ht rfl data⟩
  | true => exact ⟨if_pos hr, if_pos hr⟩

/-! ## The lanes of a word (20_memory.md R62) -/

/-- Lane `j` of the word made of the bytes `f 0` to `f 3`, lowest first. -/
theorem extractLsb'_of_bytes (f : Nat → Element) {j : Nat} (hj : j < 4) :
    (f 3 ++ f 2 ++ f 1 ++ f 0).extractLsb' (8 * j) 8 = f j := by
  simp only [BitVec.extractLsb'_append_eq_ite]
  interval_cases j <;> simp

/-- A word is its four lanes. -/
theorem word_eq_of_lanes {w w' : Word} (h : ∀ j, j < 4 → w.extractLsb' (8 * j) 8 = w'.extractLsb' (8 * j) 8) : w = w' := by
  apply BitVec.eq_of_getLsbD_eq
  intro i hi
  have hlane := congrArg (·.getLsbD (i % 8)) (h (i / 8) (by omega))
  have hpos : 8 * (i / 8) + i % 8 = i := by omega
  simpa [BitVec.getLsbD_extractLsb', hpos, Nat.mod_lt] using hlane

theorem dmemWord_lane (s : State) (k : Nat) {j : Nat} (hj : j < 4) :
    (s.dmemWord k).extractLsb' (8 * j) 8 = s.dmemByte (4 * k + j) :=
  extractLsb'_of_bytes (fun i => s.dmemByte (4 * k + i)) hj

theorem lanes_getElem (data : Word) {j : Nat} (hj : j < (lanes data).length) :
    (lanes data)[j] = data.extractLsb' (8 * j) 8 := by
  match j, hj with
  | 0, _ | 1, _ | 2, _ | 3, _ => rfl

theorem narrowWord_lane (draw : Nat) (drives : BitVec 4) (data : Word) {j : Nat} (hj : j < 4) :
    (narrowWord draw drives data).extractLsb' (8 * j) 8 = narrowLane draw drives data j :=
  extractLsb'_of_bytes (narrowLane draw drives data) hj

theorem narrowLane_of_driven (draw : Nat) {drives : BitVec 4} (data : Word) {j : Nat} (h : drives.getLsbD j = true) :
    narrowLane draw drives data j = data.extractLsb' (8 * j) 8 := if_pos h

/-- A write that drives every lane takes the host's word. -/
theorem narrowWord_of_all_driven (draw : Nat) (data : Word) : narrowWord draw 0xF#4 data = data := by
  refine word_eq_of_lanes fun j hj => ?_
  have hdriven : (0xF#4).getLsbD j = true := by interval_cases j <;> rfl
  rw [narrowWord_lane draw _ data hj, narrowLane_of_driven draw data hdriven]

/-! ## The windows, read and written (20_memory.md R67 to R69) -/

/-- The word index of word `k` of the window that begins at word `base`. -/
theorem wordIndex_ofNat {base k : Nat} (h : base + k < 4096) :
    (BitVec.ofNat 14 (4 * base + 4 * k)).toNat / 4 = base + k := by
  rw [BitVec.toNat_ofNat, Nat.mod_eq_of_lt (by omega)]
  omega

theorem hostTarget_eregWindow (p : Params) (k : EReg) : hostTarget p (BitVec.ofNat 14 (0x100 + 4 * k.val)) = .ereg k :=
  hostTarget_ereg p k (wordIndex_ofNat (base := 64) (by omega))

theorem hostTarget_dmemWindow (p : Params) {k : Nat} (hk : k < 1024) :
    hostTarget p (BitVec.ofNat 14 (0x1000 + 4 * k)) = if 4 * k + 3 < p.dmemBytes then .dmem k else .unmapped :=
  hostTarget_dmem p (wordIndex_ofNat (base := 1024) (by omega)) hk

theorem hostTarget_imemWindow (p : Params) {k : Nat} (hk : k < 2048) :
    hostTarget p (BitVec.ofNat 14 (0x2000 + 4 * k)) = if k < p.imemWords then .imem k else .unmapped :=
  hostTarget_imem p (wordIndex_ofNat (base := 2048) (by omega))

theorem sameBesidesWindows_writeE (k : EReg) (x : Element) : SameBesidesWindows s (s.writeE k x) :=
  ⟨fun _ => rfl, ⟨rfl, rfl, rfl, rfl, rfl⟩, ⟨rfl, rfl, rfl, rfl, rfl, rfl, rfl, rfl⟩⟩

theorem sameBesidesWindows_dmemWrite (addr : Nat) (xs : Poly) : SameBesidesWindows s (s.dmemWrite addr xs) :=
  ⟨fun _ => rfl, ⟨rfl, rfl, rfl, rfl, rfl⟩, ⟨rfl, rfl, rfl, rfl, rfl, rfl, rfl, rfl⟩⟩

theorem sameBesidesWindows_imemWrite (k : Nat) (w : Word) : SameBesidesWindows s (s.imemWrite k w) :=
  ⟨fun _ => rfl, ⟨rfl, rfl, rfl, rfl, rfl⟩, ⟨rfl, rfl, rfl, rfl, rfl, rfl, rfl, rfl⟩⟩

/-- A word stored at DMEM word `k` puts lane `j` at byte `4k + j`. -/
theorem dmemByte_dmemWrite_lanes (k : Nat) (data : Word) {j : Nat} (hj : j < 4) :
    (s.dmemWrite (4 * k) (lanes data)).dmemByte (4 * k + j) = data.extractLsb' (8 * j) 8 :=
  (dmemByte_dmemWrite_inside s (4 * k) (lanes data) j hj).trans (lanes_getElem data hj)

/-- Settles O52: each window's target, its value, and the one register or memory write its store is. -/
theorem windowsReachRegistersAndMemories : Obligations.WindowsReachRegistersAndMemories := by
  intro s hs
  refine ⟨fun k data => ?_, fun k data hk hmapped => ?_, fun k data hk hmapped => ?_, fun k hk hbeyond => ?_,
    fun k hk hbeyond => ?_⟩
  · have ht := hostTarget_eregWindow s.params k
    exact ⟨hostRead_of_mayTouch hs ht, s.writeE k _, hostWrite_of_mayTouch hs ht data, readE_writeE_same s k _,
      fun i hi => readE_writeE_ne s k i _ hi, fun _ => rfl, fun _ => rfl, rfl, sameBesidesWindows_writeE k _⟩
  · have ht := (hostTarget_dmemWindow s.params hk).trans (if_pos hmapped)
    rw [hostRead_of_mayTouch hs ht]
    exact ⟨rfl, fun j hj => dmemWord_lane s k hj, s.dmemWrite (4 * k) (lanes data), hostWrite_of_mayTouch hs ht data,
      fun j hj => dmemByte_dmemWrite_lanes k data hj, fun a ha => dmemByte_dmemWrite_outside s _ (lanes data) a ha,
      fun _ => rfl, fun _ => rfl, rfl, sameBesidesWindows_dmemWrite _ _⟩
  · have ht := (hostTarget_imemWindow s.params hk).trans (if_pos hmapped)
    exact ⟨hostRead_of_mayTouch hs ht, s.imemWrite k data, hostWrite_of_mayTouch hs ht data,
      (imemWord_imemWrite s k k data).trans (if_pos rfl), fun j hj => (imemWord_imemWrite s k j data).trans (if_neg hj),
      fun _ => rfl, fun _ => rfl, rfl, sameBesidesWindows_imemWrite k data⟩
  · rw [hostTarget_dmemWindow s.params hk, if_neg (by omega)]
  · rw [hostTarget_imemWindow s.params hk, if_neg (by omega)]

/-! ## Whole words (20_memory.md R65) -/

theorem hostRead_eq_of_same_target {off off' : HostOffset} (h : hostTarget s.params off = hostTarget s.params off') :
    s.hostRead off = s.hostRead off' := by
  unfold State.hostRead
  rw [h]

theorem hostWrite_eq_of_same_target {off off' : HostOffset} (h : hostTarget s.params off = hostTarget s.params off')
    (data : Word) : s.hostWrite off data = s.hostWrite off' data := by
  unfold State.hostWrite
  rw [h]

theorem setFreeDraws_undo {t : State} {n : Nat} (h : t.freeDraws = n) (m : Nat) :
    (t.setFreeDraws m).setFreeDraws n = t := by
  subst h
  rfl

/-- But for the draw counter, a narrow write is the write of the whole word it takes. -/
theorem hostWriteNarrow_eq_hostWrite (off : HostOffset) (drives : BitVec 4) (data : Word) :
    { s.hostWriteNarrow off drives data with freeDraws := s.freeDraws } =
      s.hostWrite off (narrowWord s.freeDraws drives data) := by
  obtain ⟨_, _, _, _, _, hdraws⟩ := hostWrite_beyond s off (narrowWord s.freeDraws drives data)
  exact setFreeDraws_undo hdraws _

/-- Settles O53: an access sees its word's target only, and a narrow write writes the word the engine takes. -/
theorem hostAccessesAreWholeWords : Obligations.HostAccessesAreWholeWords := by
  refine ⟨fun s o o' data h => ?_, fun s off drives data => ⟨narrowWord s.freeDraws drives data, fun j hj hdriven => ?_,
    hostWriteNarrow_eq_hostWrite off drives data, fun hall => ?_⟩⟩
  · have ht := hostTarget_eq_of_same_word s.params h
    exact ⟨hostRead_eq_of_same_target ht, hostWrite_eq_of_same_target ht data⟩
  · rw [narrowWord_lane _ drives data hj, narrowLane_of_driven _ data hdriven]
  · rw [hall, narrowWord_of_all_driven]

end Sys2Proof.Machine
end

section
/-! PROOFS. Encoding and decoding (30_encoding.md R91 to R96): the decoder undoes the encoder, the encoder undoes the decoder,
and a word is accepted exactly when the `Z` bits and the top bits of the V fields of its row are zero. -/

namespace Sys2Proof.Machine

variable {w : Word} {m : Mnemonic} {i : Instr}

/-! ## The row of a word -/

theorem op_injective {m n : Mnemonic} (h : m.op = n.op) : m = n := by
  simpa using congrArg Mnemonic.ofOp? h

theorem decode_eq_decodeAs (h : m.op = opField w) : decode w = decodeAs m w := by
  simp [decode, ← h]

theorem opField_encode (i : Instr) : opField (encode i) = i.mnemonic.op := by
  cases i <;> simp [encode, Instr.mnemonic]

/-! ## Decoding after encoding -/

theorem toNat_addrField {addr : Nat} (h : addrFits addr = true) : (BitVec.ofNat 12 addr).toNat = addr := by
  have hle : addr ≤ 4095 := of_decide_eq_true h
  rw [BitVec.toNat_ofNat]
  omega

theorem toNat_countField {len : Nat} (h : countFits len = true) : (BitVec.ofNat 8 len).toNat = len := by
  have hle : len ≤ 255 := of_decide_eq_true h
  rw [BitVec.toNat_ofNat]
  omega

theorem toInt_offsetField {off : Int} (h : offsetFits off = true) : (BitVec.ofInt 16 off).toInt = off := by
  obtain ⟨hlo, hhi⟩ : -32768 ≤ off ∧ off ≤ 32767 := of_decide_eq_true h
  exact BitVec.toInt_ofInt_eq_self (by decide) hlo (Int.lt_add_one_of_le hhi)

/-- Cutting the fields of an instruction's word as its row says gives the operands back. -/
theorem decodeAs_encode (h : i.wellFormed = true) : decodeAs i.mnemonic (encode i) = .ok i := by
  cases i with
  | eld r addr | est r addr | vst r addr =>
    simp [decodeAs, Instr.mnemonic, encode, whenZero, toNat_addrField h]
  | vld r len addr =>
    obtain ⟨hlen, haddr⟩ := Bool.and_eq_true_iff.1 h
    simp [decodeAs, Instr.mnemonic, encode, toNat_countField hlen, toNat_addrField haddr]
  | vclr d len => simp [decodeAs, Instr.mnemonic, encode, whenZero, toNat_countField h]
  | jmp off | beq a b off | bne a b off =>
    simp [decodeAs, Instr.mnemonic, encode, whenZero, toInt_offsetField h]
  | _ => simp [decodeAs, Instr.mnemonic, encode, whenZero]

/-- Settles O33: the `op` byte selects the instruction's own row, whose fields are the operands. -/
theorem decodingInvertsEncoding : Obligations.DecodingInvertsEncoding := by
  intro i h
  rw [decode_eq_decodeAs (opField_encode i).symm]
  exact decodeAs_encode h

/-! ## Encoding after decoding -/

theorem addrFits_toNat (f : BitVec 12) : addrFits f.toNat = true := decide_eq_true (Nat.le_of_lt_succ f.isLt)

theorem countFits_toNat (f : BitVec 8) : countFits f.toNat = true := decide_eq_true (Nat.le_of_lt_succ f.isLt)

theorem offsetFits_toInt (f : BitVec 16) : offsetFits f.toInt = true :=
  decide_eq_true ⟨BitVec.le_toInt f, Int.le_of_lt_add_one BitVec.toInt_lt⟩

/-- A run of bits is zero exactly when each of its bits is clear. -/
theorem extractLsb'_eq_zero_iff (w : Word) (start len : Nat) :
    w.extractLsb' start len = 0#len ↔ ∀ k < len, w.getLsbD (start + k) = false := by
  simp [BitVec.eq_of_getElem_eq_iff]

/-- A run of bits inside a run that is zero is zero. -/
theorem extractLsb'_eq_zero_of_subfield {start len start' len' : Nat} (z : w.extractLsb' start len = 0#len)
    (hlo : start ≤ start') (hhi : start' + len' ≤ start + len) : w.extractLsb' start' len' = 0#len' := by
  rw [extractLsb'_eq_zero_iff] at z ⊢
  intro k hk
  have hbit := z (start' - start + k) (by omega)
  have hpos : start + (start' - start + k) = start' + k := by omega
  rwa [hpos] at hbit

/-- A format R word whose `b` is a `Z` field. -/
theorem word_eq_formatR_zero (h : opField w = m.op) (z : low16 w = 0#16) :
    formatR m (field20 w) (field16 w) 0#4 = w := by
  have hb : field12 w = 0#4 := extractLsb'_eq_zero_of_subfield z (by decide) (by decide)
  have hz : low12 w = 0#12 := extractLsb'_eq_zero_of_subfield z (by decide) (by decide)
  rw [← hb, word_eq_formatR w m h hz]

/-- A format B word whose `a` and `b` are `Z` fields. -/
theorem word_eq_formatB_zero (h : opField w = m.op) (z : mid8 w = 0#8) : formatB m 0#4 0#4 (low16 w) = w := by
  have ha : field20 w = 0#4 := extractLsb'_eq_zero_of_subfield z (by decide) (by decide)
  have hb : field16 w = 0#4 := extractLsb'_eq_zero_of_subfield z (by decide) (by decide)
  calc formatB m 0#4 0#4 (low16 w) = formatB m (field20 w) (field16 w) (low16 w) := by rw [ha, hb]
    _ = w := word_eq_formatB w m h

/-- A format M word whose `len8` is a `Z` field. -/
theorem word_eq_formatM_zero (h : opField w = m.op) (z : len8Field w = 0#8) :
    formatM m (field20 w) 0#8 (low12 w) = w := by
  rw [← z, word_eq_formatM w m h]

/-- The instruction a row reads from a word of its opcode is in range, and its word is that word: each field was cut whole
or found zero. -/
theorem encode_decodeAs (hop : opField w = m.op) (h : decodeAs m w = .ok i) : i.wellFormed = true ∧ encode i = w := by
  cases m <;> simp only [decodeAs, whenZero_eq_ok, withV_eq_ok, Except.ok.injEq] at h
  case gadd | gmul =>
    obtain ⟨z, rfl⟩ := h
    exact ⟨rfl, by simp [encode, word_eq_formatR w _ hop z]⟩
  case gneg | ginv | emov | einc =>
    obtain ⟨z, rfl⟩ := h
    exact ⟨rfl, by simp [encode, word_eq_formatR_zero hop z]⟩
  case peval | vget =>
    obtain ⟨z, a, ha, rfl⟩ := h
    exact ⟨rfl, by simp [encode, ha, word_eq_formatR w _ hop z]⟩
  case padd | pmul | linterp =>
    obtain ⟨z, d, hd, a, ha, b, hb, rfl⟩ := h
    exact ⟨rfl, by simp [encode, hd, ha, hb, word_eq_formatR w _ hop z]⟩
  case pscale | lbasis =>
    obtain ⟨z, d, hd, a, ha, rfl⟩ := h
    exact ⟨rfl, by simp [encode, hd, ha, word_eq_formatR w _ hop z]⟩
  case vmov =>
    obtain ⟨z, d, hd, a, ha, rfl⟩ := h
    exact ⟨rfl, by simp [encode, hd, ha, word_eq_formatR_zero hop z]⟩
  case vlen =>
    obtain ⟨z, a, ha, rfl⟩ := h
    exact ⟨rfl, by simp [encode, ha, word_eq_formatR_zero hop z]⟩
  case vset =>
    obtain ⟨z, d, hd, rfl⟩ := h
    exact ⟨rfl, by simp [encode, hd, word_eq_formatR w _ hop z]⟩
  case eli =>
    obtain ⟨z, rfl⟩ := h
    exact ⟨rfl, by simp [encode, word_eq_formatI w _ hop z]⟩
  case vclr =>
    obtain ⟨z, d, hd, rfl⟩ := h
    exact ⟨countFits_toNat _, by simp [encode, hd, word_eq_formatI w _ hop z]⟩
  case eld | est =>
    obtain ⟨z, rfl⟩ := h
    exact ⟨addrFits_toNat _, by simp [encode, word_eq_formatM_zero hop z]⟩
  case vst =>
    obtain ⟨z, r, hr, rfl⟩ := h
    exact ⟨addrFits_toNat _, by simp [encode, hr, word_eq_formatM_zero hop z]⟩
  case vld =>
    obtain ⟨r, hr, rfl⟩ := h
    exact ⟨Bool.and_eq_true_iff.2 ⟨countFits_toNat _, addrFits_toNat _⟩, by simp [encode, hr, word_eq_formatM w _ hop]⟩
  case halt | nop =>
    obtain ⟨z, rfl⟩ := h
    exact ⟨rfl, word_eq_formatN w _ hop z⟩
  case jmp =>
    obtain ⟨z, rfl⟩ := h
    exact ⟨offsetFits_toInt _, by simp [encode, word_eq_formatB_zero hop z]⟩
  case beq | bne =>
    subst h
    exact ⟨offsetFits_toInt _, by simp [encode, word_eq_formatB w _ hop]⟩

theorem wellFormed_and_encode_of_decode (h : decode w = .ok i) : i.wellFormed = true ∧ encode i = w := by
  obtain ⟨m, hop, hd⟩ := (decode_eq_ok w i).1 h
  exact encode_decodeAs hop.symm hd

theorem op_mnemonic_of_decode (h : decode w = .ok i) : i.mnemonic.op = opField w := by
  rw [← opField_encode, (wellFormed_and_encode_of_decode h).2]

/-! ## Which words a row accepts -/

/-- The decoder goes on to an instruction. -/
def Accepts (r : Decoded) : Prop := ∃ i, r = .ok i

@[simp] theorem accepts_ok (i : Instr) : Accepts (.ok i) := ⟨i, rfl⟩

theorem accepts_whenZero {n : Nat} (z : BitVec n) (k : Decoded) : Accepts (whenZero z k) ↔ z = 0#n ∧ Accepts k := by
  simp [Accepts, whenZero_eq_ok]

theorem accepts_withV (f : BitVec 4) (k : VReg → Decoded) :
    Accepts (withV f k) ↔ ∃ r, vField r = f ∧ Accepts (k r) := by
  simp only [Accepts, withV_eq_ok]
  exact ⟨fun ⟨i, r, hr, hi⟩ => ⟨r, hr, i, hi⟩, fun ⟨r, hr, i, hi⟩ => ⟨i, r, hr, hi⟩⟩

theorem not_accepts_iff (r : Decoded) : ¬ Accepts r ↔ ∃ e, r = .error e := by
  cases r <;> simp [Accepts]

/-- A field names a vector register exactly when its top bit is clear (30_encoding.md R92). -/
theorem exists_vField_eq (f : BitVec 4) : (∃ r, vField r = f) ↔ f.getLsbD 3 = false := by revert f; decide

/-- The word whose bits `start` to `start + len - 1` are set. -/
def fieldMask (start len : Nat) : Word := (BitVec.allOnes len).setWidth 32 <<< start

theorem getLsbD_fieldMask (start len k : Nat) :
    (fieldMask start len).getLsbD k = decide (k < 32 ∧ start ≤ k ∧ k < start + len) := by
  simp only [fieldMask, BitVec.getLsbD_shiftLeft, BitVec.getLsbD_setWidth, BitVec.getLsbD_allOnes]
  grind

/-- A field is zero exactly when the word has no bit of the field's mask. -/
theorem and_fieldMask_eq_zero (w : Word) {start len : Nat} (h : start + len ≤ 32) :
    w &&& fieldMask start len = 0#32 ↔ w.extractLsb' start len = 0#len := by
  rw [extractLsb'_eq_zero_iff, BitVec.eq_of_getLsbD_eq_iff]
  simp only [BitVec.getLsbD_and, getLsbD_fieldMask, BitVec.getLsbD_zero]
  constructor
  · intro e k hk
    have hin : start + k < 32 ∧ start ≤ start + k ∧ start + k < start + len := by omega
    simpa [hin] using e (start + k) hin.1
  · intro e k hk
    by_cases hin : start ≤ k ∧ k < start + len
    · have hbit := e (k - start) (by omega)
      have hpos : start + (k - start) = k := by omega
      rw [hpos] at hbit
      simp [hbit]
    · simp [hin]

theorem and_or_eq_zero (w a b : Word) : w &&& (a ||| b) = 0#32 ↔ w &&& a = 0#32 ∧ w &&& b = 0#32 := by
  rw [BitVec.and_or_distrib_left, BitVec.or_eq_zero_iff]

/-! ### The masks of the `Z` fields -/

theorem low12_eq_zero (w : Word) : low12 w = 0#12 ↔ w &&& 0x00000FFF#32 = 0#32 :=
  (and_fieldMask_eq_zero w (start := 0) (by decide)).symm
theorem low16_eq_zero (w : Word) : low16 w = 0#16 ↔ w &&& 0x0000FFFF#32 = 0#32 :=
  (and_fieldMask_eq_zero w (start := 0) (by decide)).symm
theorem low24_eq_zero (w : Word) : low24 w = 0#24 ↔ w &&& 0x00FFFFFF#32 = 0#32 :=
  (and_fieldMask_eq_zero w (start := 0) (by decide)).symm
theorem mid12_eq_zero (w : Word) : mid12 w = 0#12 ↔ w &&& 0x000FFF00#32 = 0#32 :=
  (and_fieldMask_eq_zero w (start := 8) (by decide)).symm
theorem mid8_eq_zero (w : Word) : mid8 w = 0#8 ↔ w &&& 0x00FF0000#32 = 0#32 :=
  (and_fieldMask_eq_zero w (start := 16) (by decide)).symm
theorem len8Field_eq_zero (w : Word) : len8Field w = 0#8 ↔ w &&& 0x000FF000#32 = 0#32 :=
  (and_fieldMask_eq_zero w (start := 12) (by decide)).symm

/-! ### The masks of the top bits of the V fields -/

theorem namesV_iff (w : Word) {start : Nat} (h : start + 4 ≤ 32) :
    (∃ r, vField r = w.extractLsb' start 4) ↔ w &&& fieldMask (start + 3) 1 = 0#32 := by
  rw [exists_vField_eq, and_fieldMask_eq_zero w (by omega), extractLsb'_eq_zero_iff]
  simp

theorem namesV_field20 (w : Word) : (∃ r, vField r = field20 w) ↔ w &&& 0x00800000#32 = 0#32 :=
  namesV_iff w (start := 20) (by decide)
theorem namesV_field16 (w : Word) : (∃ r, vField r = field16 w) ↔ w &&& 0x00080000#32 = 0#32 :=
  namesV_iff w (start := 16) (by decide)
theorem namesV_field12 (w : Word) : (∃ r, vField r = field12 w) ↔ w &&& 0x00008000#32 = 0#32 :=
  namesV_iff w (start := 12) (by decide)

theorem and_topBits_two (w : Word) :
    w &&& 0x00880000#32 = 0#32 ↔ w &&& 0x00800000#32 = 0#32 ∧ w &&& 0x00080000#32 = 0#32 :=
  and_or_eq_zero w 0x00800000#32 0x00080000#32

theorem and_topBits_three (w : Word) :
    w &&& 0x00888000#32 = 0#32 ↔
      w &&& 0x00800000#32 = 0#32 ∧ w &&& 0x00080000#32 = 0#32 ∧ w &&& 0x00008000#32 = 0#32 := by
  rw [← and_or_eq_zero, ← and_or_eq_zero]
  rfl

/-- The fields of a word are legal for a row exactly when the row's `Z` bits and the top bits of its V fields are clear
(30_encoding.md R96 (2) and (3)). -/
theorem accepts_decodeAs (m : Mnemonic) (w : Word) :
    Accepts (decodeAs m w) ↔ w &&& zeroBits m = 0#32 ∧ w &&& vectorTopBits m = 0#32 := by
  cases m <;>
    simp [decodeAs, accepts_whenZero, accepts_withV, zeroBits, vectorTopBits, namesV_field20, namesV_field16,
      namesV_field12, and_topBits_two, and_topBits_three, low12_eq_zero, low16_eq_zero, low24_eq_zero, mid12_eq_zero,
      mid8_eq_zero, len8Field_eq_zero]

/-- A word decodes to an instruction of a row exactly when it has the row's opcode and legal fields. -/
theorem decodes_to_row_iff (m : Mnemonic) (w : Word) :
    (∃ i, decode w = .ok i ∧ i.mnemonic = m) ↔
      m.op = opField w ∧ w &&& zeroBits m = 0#32 ∧ w &&& vectorTopBits m = 0#32 := by
  rw [← accepts_decodeAs]
  constructor
  · rintro ⟨i, hi, rfl⟩
    have hop := op_mnemonic_of_decode hi
    exact ⟨hop, i, (decode_eq_decodeAs hop).symm.trans hi⟩
  · rintro ⟨hop, i, hi⟩
    have hd : decode w = .ok i := (decode_eq_decodeAs hop).trans hi
    exact ⟨i, hd, op_injective ((op_mnemonic_of_decode hd).trans hop.symm)⟩

/-! ## The opcode map (30_encoding.md R94, R95) -/

/-- The mask of a row is the opcode field, the row's `Z` bits and the top bits of its V fields. -/
theorem mask_eq (m : Mnemonic) : m.mask = 0xFF000000#32 ||| (zeroBits m ||| vectorTopBits m) := by cases m <;> rfl

theorem pattern_eq (m : Mnemonic) : m.pattern = formatN m := by cases m <;> rfl

/-- A row's pattern has no bit outside the opcode field. -/
theorem pattern_and (m : Mnemonic) : m.pattern &&& (zeroBits m ||| vectorTopBits m) = 0#32 := by cases m <;> rfl

theorem opField_and_opMask (w : Word) : opField (w &&& 0xFF000000#32) = opField w := by
  rw [opField, BitVec.extractLsb'_and]
  exact BitVec.and_allOnes

theorem low24_and_opMask (w : Word) : low24 (w &&& 0xFF000000#32) = 0#24 := by
  rw [low24, BitVec.extractLsb'_and]
  exact BitVec.and_zero

theorem and_opMask_eq_pattern (m : Mnemonic) (w : Word) : w &&& 0xFF000000#32 = m.pattern ↔ m.op = opField w := by
  rw [pattern_eq]
  constructor
  · intro h
    rw [← opField_and_opMask, h, opField_formatN]
  · intro h
    exact (word_eq_formatN _ m ((opField_and_opMask w).trans h.symm) (low24_and_opMask w)).symm

/-- Under a mask of two parts a word is a value without a bit of the second part exactly when it is that value under the first
part and zero under the second. -/
theorem and_or_eq_iff (w a b v : Word) (hv : v &&& b = 0#32) :
    w &&& (a ||| b) = v ↔ w &&& a = v ∧ w &&& b = 0#32 := by
  constructor
  · intro h
    have hb : w &&& b = 0#32 := by
      calc w &&& b = (w &&& (a ||| b)) &&& b := by ext k; grind
        _ = 0#32 := by rw [h, hv]
    rw [BitVec.and_or_distrib_left, hb, BitVec.or_zero] at h
    exact ⟨h, hb⟩
  · rintro ⟨ha, hb⟩
    rw [BitVec.and_or_distrib_left, ha, hb, BitVec.or_zero]

theorem matches_iff (m : Mnemonic) (w : Word) :
    m.matches w = true ↔ m.op = opField w ∧ w &&& zeroBits m = 0#32 ∧ w &&& vectorTopBits m = 0#32 := by
  rw [Mnemonic.matches, beq_iff_eq, mask_eq, and_or_eq_iff _ _ _ _ (pattern_and m), and_opMask_eq_pattern,
    and_or_eq_zero]

theorem matches_iff_decodes (w : Word) (m : Mnemonic) :
    m.matches w = true ↔ ∃ i, decode w = .ok i ∧ i.mnemonic = m :=
  (matches_iff m w).trans (decodes_to_row_iff m w).symm

/-- Settles O34: a row's mask covers its opcode and exactly the bits its fields must leave clear. -/
theorem decodingFollowsTheOpcodeMap : Obligations.DecodingFollowsTheOpcodeMap := by
  refine ⟨matches_iff_decodes, fun w m n hm hn => ?_, fun w i h => wellFormed_and_encode_of_decode h, fun w => ?_⟩
  · obtain ⟨hopm, _⟩ := (matches_iff m w).1 hm
    obtain ⟨hopn, _⟩ := (matches_iff n w).1 hn
    exact op_injective (hopm.trans hopn.symm)
  · rw [← not_accepts_iff]
    constructor
    · rintro hnone ⟨i, hi⟩
      have hmatch := (matches_iff_decodes w i.mnemonic).2 ⟨i, hi, rfl⟩
      exact absurd (hmatch.symm.trans (hnone i.mnemonic)) (by decide)
    · intro hna m
      refine Bool.eq_false_iff.2 fun hm => hna ?_
      obtain ⟨i, hi, _⟩ := (matches_iff_decodes w m).1 hm
      exact ⟨i, hi⟩

/-! ## The illegal words (30_encoding.md R96) -/

/-- The `op` values listed as reserved are those of no row. -/
theorem reservedOp_iff (b : BitVec 8) : ReservedOp b ↔ ∀ m : Mnemonic, m.op ≠ b := by
  rw [← ofOp_eq_none]
  unfold ReservedOp
  revert b
  decide

/-- A word is illegal exactly when no row has its opcode, or the row that has it finds a bit that must be clear. -/
theorem decode_eq_error_iff (w : Word) : (∃ r, decode w = .error r) ↔ ReservedOp (opField w) ∨
    ∃ m : Mnemonic, m.op = opField w ∧ (w &&& zeroBits m ≠ 0#32 ∨ w &&& vectorTopBits m ≠ 0#32) := by
  rw [← not_accepts_iff, reservedOp_iff]
  constructor
  · intro hna
    refine or_iff_not_imp_left.2 fun hrow => ?_
    obtain ⟨m, hop⟩ := not_forall_not.1 hrow
    refine ⟨m, hop, not_and_or.1 fun hclear => hna ?_⟩
    rw [decode_eq_decodeAs hop]
    exact (accepts_decodeAs m w).2 hclear
  · rintro hbad ⟨i, hi⟩
    have hop := op_mnemonic_of_decode hi
    obtain ⟨_, hz, hv⟩ := (decodes_to_row_iff i.mnemonic w).1 ⟨i, hi, rfl⟩
    rcases hbad with hres | ⟨m, hopm, hset⟩
    · exact hres i.mnemonic hop
    · obtain rfl : i.mnemonic = m := op_injective (hop.trans hopm.symm)
      exact hset.elim (· hz) (· hv)

theorem stopped_stop (s : State) (c : Cause) (p : PcValue) (w : Word) : Stopped c p w s (s.stop c p w) :=
  ⟨rfl, rfl, rfl, rfl, rfl, rfl, fun _ => rfl, fun _ => rfl, fun _ => rfl, fun _ => rfl,
    rfl, rfl, rfl, rfl, rfl, rfl, rfl, rfl⟩

/-- With no abort pending and `pc` inside IMEM, an engine cycle executes the word at `pc`. -/
theorem engineCycle_of_fetch {s : State} (ha : s.abortPending = false) (hpc : s.pc.toNat < s.params.imemWords) :
    engineCycle s = executeWord (s.imemWord s.pc.toNat) s := by
  rw [engineCycle, ha, if_neg (by decide), if_neg (Nat.not_le.2 hpc)]

theorem engineTurn_of_decode {s : State} (hr : s.rst = false) (hrun : s.engState = .running)
    (ha : s.abortPending = false) (hpc : s.pc.toNat < s.params.imemWords)
    (hd : decode (s.imemWord s.pc.toNat) = .ok i) : engineTurn s = exec i s := by
  rcases engineTurn_cases s with ⟨_, _, hturn⟩ | ⟨hrest, _⟩
  · rw [hturn, engineCycle_of_fetch ha hpc, executeWord, hd]
  · rcases hrest with hr' | hn
    · exact absurd (hr.symm.trans hr') (by decide)
    · exact absurd hrun hn

/-- Settles O35: the illegal words are those of `decode_eq_error_iff`, and the cycle that fetches one is the stop action. -/
theorem illegalWordsAreTheReservedOnes : Obligations.IllegalWordsAreTheReservedOnes := by
  refine ⟨decode_eq_error_iff, ⟨.reservedOpcode, rfl⟩, fun s r ha hpc hd => ⟨_, ?_, stopped_stop s _ _ _⟩⟩
  rw [engineCycle_of_fetch ha hpc, executeWord, hd]

/-! ## The step that runs an instruction (30_encoding.md R110) -/

/-- Settles O38: with nothing that comes before the fetch, an engine's turn executes the word at `pc`. -/
theorem stepRunsTheDecodedInstruction : Obligations.StepRunsTheDecodedInstruction := by
  intro s i hl hr hrun ha hpc hd
  exact ⟨fun hs => by rw [step_of_legal s hl, hs]; exact engineTurn_of_decode hr hrun ha hpc hd,
    fun rest hs => (step_of_schedule hl hs).trans (engineTurn_of_decode (s := s.setSchedule rest) hr hrun ha hpc hd)⟩

/-! ## The pseudo-instructions (30_encoding.md R103) -/

/-- Settles O37: each expansion is by definition, and the two texts assemble by evaluation. -/
theorem pseudoInstructionsExpand : Obligations.PseudoInstructionsExpand := by
  refine ⟨fun _ _ _ => rfl, fun _ _ _ => rfl, fun _ _ => rfl, fun _ => rfl, fun _ => rfl, fun _ => rfl, ?_, ?_⟩
  · decide
  · decide

end Sys2Proof.Machine
end

section
/-! PROOFS. Noninterference (30_encoding.md R112): one instruction in two states that agree on its named sources ends in the
same way in both. -/

namespace Sys2Proof.Machine

variable {i : Instr} {s u : State}

/-! ## The same end from two states -/

/-- The destinations an instruction names. -/
structure WritesTo (i : Instr) (s : State) (e : Option EReg) (v : Option VReg) (bytes : Nat × Nat) : Prop where
  element : destElement i = e
  vector : destVector i = v
  bytes : destBytes i s = bytes

/-- The two results of an instruction that ends in the same way in two states: it writes one value to its destination and
takes the default successor, sends `pc` to one place, halts, or raises one fault. -/
inductive SameEnd (i : Instr) (s u : State) : Result → Result → Prop where
  | element (d : EReg) (x : Element) (dest : WritesTo i s (some d) none (0, 0)) :
      SameEnd i s u (s.writeE d x).retire (u.writeE d x).retire
  | vector (d : VReg) (xs : Poly) (dest : WritesTo i s none (some d) (0, 0)) :
      SameEnd i s u (s.writeV d xs).retire (u.writeV d xs).retire
  | dmem (addr : Nat) (xs : Poly) (dest : WritesTo i s none none (addr, xs.length)) :
      SameEnd i s u (s.dmemWrite addr xs).retire (u.dmemWrite addr xs).retire
  | control (p : PcValue) (dest : WritesTo i s none none (0, 0)) :
      SameEnd i s u (s.jumpTo p) (u.jumpTo p)
  | halt (dest : WritesTo i s none none (0, 0)) :
      SameEnd i s u (s.setEngState .done).retire (u.setEngState .done).retire
  | fault (c : Cause) : SameEnd i s u (s.raise c i) (u.raise c i)

theorem sameEnd_writeE (d : EReg) {x y : Element} (hxy : y = x) (dest : WritesTo i s (some d) none (0, 0)) :
    SameEnd i s u (s.writeE d x).retire (u.writeE d y).retire := by
  subst hxy
  exact .element d _ dest

theorem sameEnd_writeV (d : VReg) {xs ys : Poly} (hxy : ys = xs) (dest : WritesTo i s none (some d) (0, 0)) :
    SameEnd i s u (s.writeV d xs).retire (u.writeV d ys).retire := by
  subst hxy
  exact .vector d _ dest

theorem sameEnd_jumpTo {p q : PcValue} (hpq : q = p) (dest : WritesTo i s none none (0, 0)) :
    SameEnd i s u (s.jumpTo p) (u.jumpTo q) := by
  subst hpq
  exact .control _ dest

/-- The default successor alone is a transfer to the next index. -/
theorem sameEnd_retire (hpc : u.pc = s.pc) (dest : WritesTo i s none none (0, 0)) :
    SameEnd i s u s.retire u.retire :=
  sameEnd_jumpTo (congrArg (· + 1#16) hpc) dest

theorem dmemRead_congr {addr len : Nat} (h : ∀ k < len, u.dmemByte (addr + k) = s.dmemByte (addr + k)) :
    u.dmemRead addr len = s.dmemRead addr len := by
  refine List.ext_getElem (by simp) fun k hu hs => ?_
  rw [getElem_dmemRead, getElem_dmemRead]
  exact h k (by simpa using hs)

/-! ## The instructions that check before they write, and the branches -/

theorem execGinv_sameEnd (d a : EReg) (ha : u.readE a = s.readE a) :
    SameEnd (.ginv d a) s u (execGinv d a s) (execGinv d a u) := by
  rw [execGinv, execGinv, ha]
  cases gfInv (s.readE a) with
  | some x => exact .element d x ⟨rfl, rfl, rfl⟩
  | none => exact .fault _

theorem execPmul_sameEnd (d a b : VReg) (ha : u.readV a = s.readV a) (hb : u.readV b = s.readV b)
    (hp : u.params = s.params) : SameEnd (.pmul d a b) s u (execPmul d a b s) (execPmul d a b u) := by
  rw [execPmul, execPmul, ha, hb, hp]
  split
  · exact .fault _
  · exact .vector d _ ⟨rfl, rfl, rfl⟩

theorem execLbasis_sameEnd (d a : VReg) (b : EReg) (ha : u.readV a = s.readV a) (hb : u.readE b = s.readE b) :
    SameEnd (.lbasis d a b) s u (execLbasis d a b s) (execLbasis d a b u) := by
  rw [execLbasis, execLbasis, ha, hb]
  split
  · exact .fault _
  · cases lagrangeBasis (indexOf (s.readE b)) (s.readV a) with
    | ok p => exact .vector d p ⟨rfl, rfl, rfl⟩
    | error c => exact .fault c

theorem execLinterp_sameEnd (d a b : VReg) (ha : u.readV a = s.readV a) (hb : u.readV b = s.readV b) :
    SameEnd (.linterp d a b) s u (execLinterp d a b s) (execLinterp d a b u) := by
  rw [execLinterp, execLinterp, ha, hb]
  cases lagrangeInterp (s.readV a) (s.readV b) with
  | ok p => exact .vector d p ⟨rfl, rfl, rfl⟩
  | error c => exact .fault c

theorem execEld_sameEnd (r : EReg) (addr : Nat) (hx : u.dmemByte addr = s.dmemByte addr) (hp : u.params = s.params) :
    SameEnd (.eld r addr) s u (execEld r addr s) (execEld r addr u) := by
  rw [execEld, execEld, hx, hp]
  split
  · exact .element r _ ⟨rfl, rfl, rfl⟩
  · exact .fault _

theorem execEst_sameEnd (r : EReg) (addr : Nat) (hr : u.readE r = s.readE r) (hp : u.params = s.params) :
    SameEnd (.est r addr) s u (execEst r addr s) (execEst r addr u) := by
  rw [execEst, execEst, hr, hp]
  split
  · exact .dmem addr _ ⟨rfl, rfl, rfl⟩
  · exact .fault _

theorem execVld_sameEnd (r : VReg) (len addr : Nat) (hx : u.dmemRead addr len = s.dmemRead addr len)
    (hp : u.params = s.params) : SameEnd (.vld r len addr) s u (execVld r len addr s) (execVld r len addr u) := by
  rw [execVld, execVld, hx, hp]
  split
  · exact .fault _
  · split
    · exact .fault _
    · exact .vector r _ ⟨rfl, rfl, rfl⟩

theorem execVst_sameEnd (r : VReg) (addr : Nat) (hr : u.readV r = s.readV r) (hp : u.params = s.params) :
    SameEnd (.vst r addr) s u (execVst r addr s) (execVst r addr u) := by
  rw [execVst, execVst, hr, hp]
  split
  · exact .dmem addr _ ⟨rfl, rfl, rfl⟩
  · exact .fault _

theorem execVget_sameEnd (d : EReg) (a : VReg) (b : EReg) (ha : u.readV a = s.readV a) (hb : u.readE b = s.readE b) :
    SameEnd (.vget d a b) s u (execVget d a b s) (execVget d a b u) := by
  rw [execVget, execVget, ha, hb]
  cases elementAt? (s.readV a) (indexOf (s.readE b)) with
  | some x => exact .element d x ⟨rfl, rfl, rfl⟩
  | none => exact .fault _

theorem execVset_sameEnd (d : VReg) (a b : EReg) (hd : u.readV d = s.readV d) (ha : u.readE a = s.readE a)
    (hb : u.readE b = s.readE b) : SameEnd (.vset d a b) s u (execVset d a b s) (execVset d a b u) := by
  rw [execVset, execVset, hd, ha, hb]
  split
  · exact .fault _
  · exact .vector d _ ⟨rfl, rfl, rfl⟩

theorem execVclr_sameEnd (d : VReg) (len : Nat) (hp : u.params = s.params) :
    SameEnd (.vclr d len) s u (execVclr d len s) (execVclr d len u) := by
  rw [execVclr, execVclr, hp]
  split
  · exact .vector d _ ⟨rfl, rfl, rfl⟩
  · exact .fault _

theorem execBeq_sameEnd (a b : EReg) (off : Int) (ha : u.readE a = s.readE a) (hb : u.readE b = s.readE b)
    (hpc : u.pc = s.pc) : SameEnd (.beq a b off) s u (execBeq a b off s) (execBeq a b off u) := by
  rw [execBeq, execBeq, ha, hb, hpc]
  split
  · exact .control _ ⟨rfl, rfl, rfl⟩
  · exact sameEnd_retire hpc ⟨rfl, rfl, rfl⟩

theorem execBne_sameEnd (a b : EReg) (off : Int) (ha : u.readE a = s.readE a) (hb : u.readE b = s.readE b)
    (hpc : u.pc = s.pc) : SameEnd (.bne a b off) s u (execBne a b off s) (execBne a b off u) := by
  rw [execBne, execBne, ha, hb, hpc]
  split
  · exact sameEnd_retire hpc ⟨rfl, rfl, rfl⟩
  · exact .control _ ⟨rfl, rfl, rfl⟩

/-! ## Every instruction -/

/-- An instruction ends in the same way in two states that agree on its named sources, `pc` and the parameters. -/
theorem exec_sameEnd (h : AgreeOnSources i s u) : SameEnd i s u (exec i s) (exec i u) := by
  obtain ⟨hE, hV, hB, hpc, hp⟩ := h
  cases i with
  | gadd d a b => exact sameEnd_writeE d (congrArg₂ gfAdd (hE a (.head _)) (hE b (.tail _ (.head _)))) ⟨rfl, rfl, rfl⟩
  | gneg d a => exact sameEnd_writeE d (congrArg gfNeg (hE a (.head _))) ⟨rfl, rfl, rfl⟩
  | gmul d a b => exact sameEnd_writeE d (congrArg₂ gfMul (hE a (.head _)) (hE b (.tail _ (.head _)))) ⟨rfl, rfl, rfl⟩
  | ginv d a => exact execGinv_sameEnd d a (hE a (.head _))
  | peval d a b => exact sameEnd_writeE d (congrArg₂ polyEval (hV a (.head _)) (hE b (.head _))) ⟨rfl, rfl, rfl⟩
  | padd d a b => exact sameEnd_writeV d (congrArg₂ polyAdd (hV a (.head _)) (hV b (.tail _ (.head _)))) ⟨rfl, rfl, rfl⟩
  | pmul d a b => exact execPmul_sameEnd d a b (hV a (.head _)) (hV b (.tail _ (.head _))) hp
  | pscale d a b => exact sameEnd_writeV d (congrArg₂ polyScale (hV a (.head _)) (hE b (.head _))) ⟨rfl, rfl, rfl⟩
  | lbasis d a b => exact execLbasis_sameEnd d a b (hV a (.head _)) (hE b (.head _))
  | linterp d a b => exact execLinterp_sameEnd d a b (hV a (.head _)) (hV b (.tail _ (.head _)))
  | eli d imm => exact .element d imm ⟨rfl, rfl, rfl⟩
  | emov d a => exact sameEnd_writeE d (hE a (.head _)) ⟨rfl, rfl, rfl⟩
  | einc d a => exact sameEnd_writeE d (congrArg (· + 1#8) (hE a (.head _))) ⟨rfl, rfl, rfl⟩
  | eld r addr => exact execEld_sameEnd r addr (hB 0 Nat.one_pos) hp
  | est r addr => exact execEst_sameEnd r addr (hE r (.head _)) hp
  | vld r len addr => exact execVld_sameEnd r len addr (dmemRead_congr hB) hp
  | vst r addr => exact execVst_sameEnd r addr (hV r (.head _)) hp
  | vmov d a => exact sameEnd_writeV d (hV a (.head _)) ⟨rfl, rfl, rfl⟩
  | vlen d a => exact sameEnd_writeE d (congrArg lengthElement (hV a (.head _))) ⟨rfl, rfl, rfl⟩
  | vget d a b => exact execVget_sameEnd d a b (hV a (.head _)) (hE b (.head _))
  | vset d a b => exact execVset_sameEnd d a b (hV d (.head _)) (hE a (.head _)) (hE b (.tail _ (.head _)))
  | vclr d len => exact execVclr_sameEnd d len hp
  | halt => exact .halt ⟨rfl, rfl, rfl⟩
  | nop => exact sameEnd_retire hpc ⟨rfl, rfl, rfl⟩
  | jmp off => exact sameEnd_jumpTo (congrArg (branchTarget · off) hpc) ⟨rfl, rfl, rfl⟩
  | beq a b off => exact execBeq_sameEnd a b off (hE a (.head _)) (hE b (.tail _ (.head _))) hpc
  | bne a b off => exact execBne_sameEnd a b off (hE a (.head _)) (hE b (.tail _ (.head _))) hpc

/-! ## What the same end says of the two results -/

section
variable {t v : State} {r r' : Result}

theorem SameEnd.engState_eq (h : SameEnd i s u r r') (hrun : u.engState = s.engState)
    (ht : r = .next t) (hv : r' = .next v) : v.engState = t.engState := by
  cases h <;> cases ht <;> cases hv
  case halt | fault => rfl
  all_goals exact hrun

theorem SameEnd.pc_eq (h : SameEnd i s u r r') (hpc : u.pc = s.pc) (ht : r = .next t) (hv : r' = .next v) :
    v.pc = t.pc := by
  cases h <;> cases ht <;> cases hv
  case control => rfl
  case fault => exact hpc
  all_goals exact congrArg (· + 1#16) hpc

theorem SameEnd.record_eq (h : SameEnd i s u r r') (hrun : s.engState = .running) (hpc : u.pc = s.pc)
    (ht : r = .next t) (hv : r' = .next v) (hf : t.engState = .fault) :
    v.cause = t.cause ∧ v.faultPc = t.faultPc ∧ v.faultInstr = t.faultInstr := by
  cases h <;> cases ht <;> cases hv
  case fault => exact ⟨rfl, hpc, rfl⟩
  case halt => exact absurd hf (by simp)
  all_goals exact absurd (hrun.symm.trans hf) (by decide)

/-- An instruction that completes leaves the same in its destination. -/
theorem SameEnd.agreeOnResults (h : SameEnd i s u r r') (ht : r = .next t) (hv : r' = .next v)
    (hf : t.engState ≠ .fault) : AgreeOnResults i s t v := by
  cases h <;> cases ht <;> cases hv
  case element d x dest | vector d xs dest | control p dest | halt dest =>
    simp [AgreeOnResults, dest.element, dest.vector, dest.bytes]
  case dmem addr xs dest =>
    have stored : ∀ k < xs.length,
        (u.dmemWrite addr xs).dmemByte (addr + k) = (s.dmemWrite addr xs).dmemByte (addr + k) := fun k hk =>
      (dmemByte_dmemWrite_inside u addr xs k hk).trans (dmemByte_dmemWrite_inside s addr xs k hk).symm
    simpa [AgreeOnResults, dest.element, dest.vector, dest.bytes] using stored
  case fault c => exact absurd rfl hf

end

/-- Settles O45: the instruction ends in the same way in both states. -/
theorem executionDependsOnNamedSourcesOnly : Obligations.ExecutionDependsOnNamedSourcesOnly := by
  intro i s u t v hs hu hagree ht hv
  have ends := exec_sameEnd hagree
  obtain ⟨_, _, _, hpc, _⟩ := hagree
  exact ⟨ends.engState_eq (hu.trans hs.symm) ht hv, ends.pc_eq hpc ht hv, ends.record_eq hs hpc ht hv,
    ends.agreeOnResults ht hv⟩

end Sys2Proof.Machine
end

section
/-! PROOFS. The laws of `gf_add` and `gf_mul` (40_field.md R120 to R123). `gfShift` is multiplication by `x`, and every element
is reached from `0x00` by shifts and additions of `0x01`. So a map that is additive and commutes with `gfShift` is fixed by its
value at `0x01`, and each law of `gf_mul` is an equality of two such maps. -/

namespace Sys2Proof.Machine

/-! ## `gf_add` and `gf_neg` -/

theorem gfAdd_comm (a b : Element) : gfAdd a b = gfAdd b a := BitVec.xor_comm a b

theorem gfAdd_assoc (a b c : Element) : gfAdd (gfAdd a b) c = gfAdd a (gfAdd b c) := BitVec.xor_assoc a b c

@[simp] theorem gfAdd_self (a : Element) : gfAdd a a = 0x00#8 := BitVec.xor_self

@[simp] theorem gfAdd_zero (a : Element) : gfAdd a 0x00#8 = a := BitVec.xor_zero

@[simp] theorem zero_gfAdd (a : Element) : gfAdd 0x00#8 a = a := BitVec.zero_xor

/-- Adding an element twice changes nothing: every element is its own negative. -/
@[simp] theorem gfAdd_gfAdd_cancel_right (a b : Element) : gfAdd (gfAdd a b) b = a := by
  rw [gfAdd_assoc, gfAdd_self, gfAdd_zero]

theorem gfAdd_gfAdd_comm (a b c d : Element) : gfAdd (gfAdd a b) (gfAdd c d) = gfAdd (gfAdd a c) (gfAdd b d) := by
  unfold gfAdd
  ac_rfl

/-- Settles O4: the laws of xor. -/
theorem fieldAdditionLaws : Obligations.FieldAdditionLaws :=
  ⟨fun a b => ⟨rfl, gfAdd_comm a b⟩, gfAdd_self, gfAdd_zero, fun _ => rfl, gfAdd_gfAdd_cancel_right⟩

/-- A term that two conditions add once each is not added at all under both. -/
theorem ite_xor {n : Nat} (p q : Bool) (x : BitVec n) :
    (if p ^^ q then x else 0#n) = (if p then x else 0#n) ^^^ (if q then x else 0#n) := by
  cases p <;> cases q <;> simp

theorem ite_xor_gfAdd (p q : Bool) (x : Element) :
    (if p ^^ q then x else 0x00#8) = gfAdd (if p then x else 0x00#8) (if q then x else 0x00#8) := ite_xor p q x

/-! ## `gfShift` -/

theorem gfShift_eq (x : Element) : gfShift x = gfAdd (x <<< 1) (if x.getLsbD 7 then 0x1B#8 else 0x00#8) := by
  rw [gfShift]
  split
  · rfl
  · rw [gfAdd_zero]

@[simp] theorem gfShift_zero : gfShift 0x00#8 = 0x00#8 := by decide

theorem gfShift_of_msb_clear {x : Element} (h : x.getLsbD 7 = false) : gfShift x = x <<< 1 := by
  rw [gfShift, h, if_neg (by decide)]

theorem gfShift_gfAdd (a b : Element) : gfShift (gfAdd a b) = gfAdd (gfShift a) (gfShift b) := by
  have hmsb : (gfAdd a b).getLsbD 7 = (a.getLsbD 7 ^^ b.getLsbD 7) := BitVec.getLsbD_xor
  have hshl : gfAdd a b <<< 1 = gfAdd (a <<< 1) (b <<< 1) := BitVec.shiftLeft_xor_distrib a b 1
  rw [gfShift_eq, gfShift_eq, gfShift_eq, hmsb, hshl, ite_xor_gfAdd, gfAdd_gfAdd_comm]

/-- An element is its upper seven bits, shifted, and its bit 0. -/
theorem eq_gfShift_or_add_one (a : Element) : a = gfShift (a >>> 1) ∨ a = gfAdd (gfShift (a >>> 1)) 0x01#8 := by
  revert a
  decide

/-- Every element is reached from `0x00` by shifting and adding `0x01`: its bits, from the highest down. -/
theorem element_induction {P : Element → Prop} (zero : P 0x00#8) (shift : ∀ a, P a → P (gfShift a))
    (addOne : ∀ a, P a → P (gfAdd a 0x01#8)) (a : Element) : P a := by
  by_cases ha : a = 0x00#8
  · exact ha ▸ zero
  · have hupper : P (gfShift (a >>> 1)) := shift _ (element_induction zero shift addOne (a >>> 1))
    rcases eq_gfShift_or_add_one a with h | h
    · exact h ▸ hupper
    · exact h ▸ addOne _ hupper
termination_by a.toNat
decreasing_by
  have hpos : a.toNat ≠ 0 := fun h => ha (BitVec.eq_of_toNat_eq h)
  rw [BitVec.toNat_ushiftRight, Nat.shiftRight_one]
  omega

/-! ## Maps that commute with the shift -/

/-- The map is additive and commutes with `gfShift`. -/
structure ShiftLinear (f : Element → Element) : Prop where
  add : ∀ a b, f (gfAdd a b) = gfAdd (f a) (f b)
  shift : ∀ a, f (gfShift a) = gfShift (f a)

namespace ShiftLinear

variable {f g : Element → Element}

theorem map_zero (hf : ShiftLinear f) : f 0x00#8 = 0x00#8 := by
  have h := hf.add 0x00#8 0x00#8
  rwa [gfAdd_self, gfAdd_self] at h

/-- Two such maps that agree at `0x01` are equal. -/
theorem eq_of_one (hf : ShiftLinear f) (hg : ShiftLinear g) (h : f 0x01#8 = g 0x01#8) (a : Element) : f a = g a := by
  induction a using element_induction with
  | zero => rw [hf.map_zero, hg.map_zero]
  | shift a ih => rw [hf.shift, hg.shift, ih]
  | addOne a ih => rw [hf.add, hg.add, ih, h]

theorem id : ShiftLinear fun a => a := ⟨fun _ _ => rfl, fun _ => rfl⟩

theorem comp (hf : ShiftLinear f) (hg : ShiftLinear g) : ShiftLinear fun a => f (g a) :=
  ⟨fun a b => by rw [hg.add, hf.add], fun a => by rw [hg.shift, hf.shift]⟩

end ShiftLinear

theorem shiftLinear_gfShift : ShiftLinear gfShift := ⟨gfShift_gfAdd, fun _ => rfl⟩

/-! ## The loop of `gf_mul` -/

theorem gfMulLoop_step (n : Nat) (acc x y : Element) :
    gfMulLoop (n + 1) acc x y =
      gfMulLoop n (gfAdd acc (if y.getLsbD 0 then x else 0x00#8)) (gfShift x) (y >>> 1) := by
  rw [gfMulLoop]
  cases y.getLsbD 0
  · simp
  · rfl

/-- One more repetition at the end adds the operand shifted as often as there were repetitions before. -/
theorem gfMulLoop_succ (n : Nat) (acc x y : Element) :
    gfMulLoop (n + 1) acc x y = gfAdd (gfMulLoop n acc x y) (if y.getLsbD n then gfShift^[n] x else 0x00#8) := by
  induction n generalizing acc x y with
  | zero => exact gfMulLoop_step 0 acc x y
  | succ n ih =>
    rw [gfMulLoop_step, ih, ← gfMulLoop_step, BitVec.getLsbD_ushiftRight, Nat.add_comm 1 n,
      ← Function.iterate_succ_apply]

theorem gfMulLoop_shift (n : Nat) (acc x y : Element) :
    gfMulLoop n (gfShift acc) (gfShift x) y = gfShift (gfMulLoop n acc x y) := by
  induction n generalizing acc x y with
  | zero => rfl
  | succ n ih =>
    rw [gfMulLoop_step, gfMulLoop_step, ← ih, gfShift_gfAdd]
    cases y.getLsbD 0 <;> simp

theorem gfMulLoop_gfAdd_left (n : Nat) (acc acc' x x' y : Element) :
    gfMulLoop n (gfAdd acc acc') (gfAdd x x') y = gfAdd (gfMulLoop n acc x y) (gfMulLoop n acc' x' y) := by
  induction n generalizing acc acc' x x' y with
  | zero => rfl
  | succ n ih =>
    rw [gfMulLoop_step, gfMulLoop_step, gfMulLoop_step, ← ih, gfShift_gfAdd, gfAdd_gfAdd_comm]
    cases y.getLsbD 0 <;> simp

theorem gfMulLoop_gfAdd_right (n : Nat) (acc acc' x y y' : Element) :
    gfMulLoop n (gfAdd acc acc') x (gfAdd y y') = gfAdd (gfMulLoop n acc x y) (gfMulLoop n acc' x y') := by
  induction n generalizing acc acc' x y y' with
  | zero => rfl
  | succ n ih =>
    have hlsb : (gfAdd y y').getLsbD 0 = (y.getLsbD 0 ^^ y'.getLsbD 0) := BitVec.getLsbD_xor
    have hshr : gfAdd y y' >>> 1 = gfAdd (y >>> 1) (y' >>> 1) := BitVec.ushiftRight_xor_distrib y y' 1
    rw [gfMulLoop_step, gfMulLoop_step, gfMulLoop_step, ← ih, hlsb, hshr, ite_xor_gfAdd, gfAdd_gfAdd_comm]

/-! ## `gf_mul` -/

theorem gfMul_gfAdd_right (a b c : Element) : gfMul a (gfAdd b c) = gfAdd (gfMul a b) (gfMul a c) :=
  gfMulLoop_gfAdd_right 8 0x00#8 0x00#8 a b c

/-- Multiplication by `b` on the right. -/
theorem shiftLinear_gfMul_left (b : Element) : ShiftLinear fun a => gfMul a b :=
  ⟨fun a c => gfMulLoop_gfAdd_left 8 0x00#8 0x00#8 a c b, fun a => gfMulLoop_shift 8 0x00#8 a b⟩

/-- The field's modulus: `x^8` is `x^4 + x^3 + x + 1`. -/
theorem gfShift_gfMul_msb (a : Element) : gfShift (gfMul a 0x80#8) = gfMul a 0x1B#8 :=
  (shiftLinear_gfShift.comp (shiftLinear_gfMul_left 0x80#8)).eq_of_one (shiftLinear_gfMul_left 0x1B#8) (by decide) a

theorem gfMul_shiftLeft (a : Element) {b : Element} (h : b.getLsbD 7 = false) :
    gfMul a (b <<< 1) = gfShift (gfMul a b) := by
  have hlsb : (b <<< 1).getLsbD 0 = false := by simp
  have hback : b <<< 1 >>> 1 = b := by
    ext i hi
    grind
  calc gfMul a (b <<< 1) = gfMulLoop 7 0x00#8 (gfShift a) b := by
        rw [gfMul, gfMulLoop, hlsb, hback, if_neg (by decide)]
    _ = gfMul (gfShift a) b := by rw [gfMul, gfMulLoop_succ 7, h, if_neg (by decide), gfAdd_zero]
    _ = gfShift (gfMul a b) := (shiftLinear_gfMul_left b).shift a

theorem gfMul_gfShift_right (a b : Element) : gfMul a (gfShift b) = gfShift (gfMul a b) := by
  cases h : b.getLsbD 7 with
  | false => rw [gfShift_of_msb_clear h, gfMul_shiftLeft a h]
  | true =>
    have hlow : (gfAdd b 0x80#8).getLsbD 7 = false := by simp [gfAdd, h]
    calc gfMul a (gfShift b) = gfMul a (gfShift (gfAdd (gfAdd b 0x80#8) 0x80#8)) := by
          rw [gfAdd_gfAdd_cancel_right]
      _ = gfAdd (gfShift (gfMul a (gfAdd b 0x80#8))) (gfMul a 0x1B#8) := by
          rw [gfShift_gfAdd, gfMul_gfAdd_right, gfShift_of_msb_clear hlow, gfMul_shiftLeft a hlow]
          rfl
      _ = gfShift (gfMul a b) := by
          rw [← gfShift_gfMul_msb, ← gfShift_gfAdd, ← gfMul_gfAdd_right, gfAdd_gfAdd_cancel_right]

/-- Multiplication by `a` on the left. -/
theorem shiftLinear_gfMul_right (a : Element) : ShiftLinear (gfMul a) :=
  ⟨gfMul_gfAdd_right a, gfMul_gfShift_right a⟩

@[simp] theorem gfMul_zero (a : Element) : gfMul a 0x00#8 = 0x00#8 := (shiftLinear_gfMul_right a).map_zero

@[simp] theorem zero_gfMul (a : Element) : gfMul 0x00#8 a = 0x00#8 := (shiftLinear_gfMul_left a).map_zero

@[simp] theorem gfMul_one (a : Element) : gfMul a 0x01#8 = a :=
  (shiftLinear_gfMul_left 0x01#8).eq_of_one .id (by decide) a

@[simp] theorem one_gfMul (a : Element) : gfMul 0x01#8 a = a :=
  (shiftLinear_gfMul_right 0x01#8).eq_of_one .id (by decide) a

theorem gfMul_comm (a b : Element) : gfMul a b = gfMul b a :=
  (shiftLinear_gfMul_right a).eq_of_one (shiftLinear_gfMul_left a) (by simp) b

theorem gfMul_assoc (a b c : Element) : gfMul (gfMul a b) c = gfMul a (gfMul b c) :=
  (shiftLinear_gfMul_right (gfMul a b)).eq_of_one ((shiftLinear_gfMul_right a).comp (shiftLinear_gfMul_right b))
    (by simp) c

/-- Settles O6: both sides of each law are shift-linear and agree at `0x01`. -/
theorem fieldMultiplicationLaws : Obligations.FieldMultiplicationLaws :=
  ⟨gfMul_comm, gfMul_zero, gfMul_assoc, gfMul_one, gfMul_gfAdd_right, by decide⟩

end Sys2Proof.Machine
end

section
/-! PROOFS. Powers and inverses in the field (40_field.md R124, R125). Squaring is additive, and eight squarings fix `0x02` and
so every element: `a^256 = a`. Hence `a^255` is idempotent, which makes it `0x01` for every nonzero `a`, and `a^254` is the
inverse of `a`. -/

namespace Sys2Proof.Machine

/-! ## Powers -/

theorem gfMul_gfMul_comm (a b c d : Element) : gfMul (gfMul a b) (gfMul c d) = gfMul (gfMul a c) (gfMul b d) := by
  rw [gfMul_assoc, gfMul_assoc, ← gfMul_assoc b, gfMul_comm b c, gfMul_assoc c]

theorem gfPower_gfMul (x y : Element) (n : Nat) : gfPower (gfMul x y) n = gfMul (gfPower x n) (gfPower y n) := by
  induction n with
  | zero => simp [gfPower]
  | succ n ih => rw [gfPower, gfPower, gfPower, ih, gfMul_gfMul_comm]

theorem gfPower_add (x : Element) (m n : Nat) : gfPower x (m + n) = gfMul (gfPower x m) (gfPower x n) := by
  induction n with
  | zero => simp [gfPower]
  | succ n ih => rw [← Nat.add_assoc, gfPower, gfPower, ih, gfMul_assoc]

theorem gfPower_square (x : Element) (n : Nat) : gfPower (gfMul x x) n = gfPower x (2 * n) := by
  rw [gfPower_gfMul, ← gfPower_add, ← Nat.two_mul]

/-- An exponent is its bit 0 and twice the exponent of the next pass. -/
theorem toNat_eq_lsb_add (e : BitVec 8) : e.toNat = (e.getLsbD 0).toNat + 2 * (e >>> 1).toNat := by
  rw [Nat.add_comm, BitVec.toNat_ushiftRight, ← Nat.bit_val, BitVec.getLsbD, Nat.bit_testBit_zero_shiftRight_one]

/-- The loop of `gf_inv` multiplies its result by the power whose exponent the passes cover. -/
theorem gfPowLoop_eq (n : Nat) (r x : Element) (e : BitVec 8) (h : e.toNat < 2 ^ n) :
    gfPowLoop n r x e = gfMul r (gfPower x e.toNat) := by
  induction n generalizing r x e with
  | zero =>
    have he : e.toNat = 0 := by omega
    simp [gfPowLoop, he, gfPower]
  | succ n ih =>
    have hbits := toNat_eq_lsb_add e
    have hacc : (if e.getLsbD 0 then gfMul r x else r) = gfMul r (gfPower x (e.getLsbD 0).toNat) := by
      cases e.getLsbD 0 <;> simp [gfPower]
    rw [gfPowLoop]
    split
    · next he => simp [he, gfPower]
    · rw [ih _ _ _ (by omega), hacc, gfPower_square, gfMul_assoc, ← gfPower_add, ← hbits]

theorem gfInv_of_ne_zero {a : Element} (h : a ≠ 0x00#8) : gfInv a = some (gfPower a 254) := by
  rw [gfInv, if_neg h, gfPowLoop_eq 8 _ _ _ (by decide), one_gfMul]
  rfl

/-! ## Repeated squaring -/

/-- The square of an element. -/
def gfSquare (a : Element) : Element := gfMul a a

theorem gfSquare_gfAdd (a b : Element) : gfSquare (gfAdd a b) = gfAdd (gfSquare a) (gfSquare b) := by
  have expand : gfSquare (gfAdd a b) =
      gfAdd (gfAdd (gfSquare a) (gfMul b a)) (gfAdd (gfMul a b) (gfSquare b)) := by
    unfold gfSquare
    rw [gfMul_gfAdd_right, (shiftLinear_gfMul_left a).add, (shiftLinear_gfMul_left b).add]
  rw [expand, gfMul_comm b a, ← gfAdd_assoc, gfAdd_gfAdd_cancel_right]

theorem gfSquare_gfMul (a b : Element) : gfSquare (gfMul a b) = gfMul (gfSquare a) (gfSquare b) :=
  gfMul_gfMul_comm a b a b

theorem iterate_gfSquare_gfAdd (k : Nat) (a b : Element) :
    gfSquare^[k] (gfAdd a b) = gfAdd (gfSquare^[k] a) (gfSquare^[k] b) := by
  induction k generalizing a b with
  | zero => rfl
  | succ k ih => simp only [Function.iterate_succ_apply, gfSquare_gfAdd, ih]

theorem iterate_gfSquare_gfMul (k : Nat) (a b : Element) :
    gfSquare^[k] (gfMul a b) = gfMul (gfSquare^[k] a) (gfSquare^[k] b) := by
  induction k generalizing a b with
  | zero => rfl
  | succ k ih => simp only [Function.iterate_succ_apply, gfSquare_gfMul, ih]

theorem iterate_gfSquare (k : Nat) (a : Element) : gfSquare^[k] a = gfPower a (2 ^ k) := by
  induction k generalizing a with
  | zero => simp [gfPower]
  | succ k ih => rw [Function.iterate_succ_apply, ih, gfSquare, gfPower_square, Nat.pow_succ']

theorem gfShift_eq_gfMul (a : Element) : gfShift a = gfMul 0x02#8 a :=
  shiftLinear_gfShift.eq_of_one (shiftLinear_gfMul_right 0x02#8) (by decide) a

/-- Eight squarings commute with multiplication by `0x02`, because they fix it. -/
theorem shiftLinear_iterate_gfSquare : ShiftLinear (gfSquare^[8]) where
  add := iterate_gfSquare_gfAdd 8
  shift a := by
    have hto : gfSquare^[4] 0x02#8 = 0x5E#8 := by decide
    have hback : gfSquare^[4] 0x5E#8 = 0x02#8 := by decide
    have hfix : gfSquare^[8] 0x02#8 = 0x02#8 := by rw [Function.iterate_add_apply gfSquare 4 4, hto, hback]
    rw [gfShift_eq_gfMul, iterate_gfSquare_gfMul, hfix, gfShift_eq_gfMul]

/-- Every element is its own 256th power. -/
theorem gfPower_256 (a : Element) : gfPower a 256 = a := by
  calc gfPower a 256 = gfSquare^[8] a := (iterate_gfSquare 8 a).symm
    _ = a := shiftLinear_iterate_gfSquare.eq_of_one .id (Function.iterate_fixed (by decide) 8) a

/-! ## The inverse -/

/-- The only idempotents are `0x00` and `0x01`. -/
theorem eq_zero_or_one_of_gfSquare_eq {e : Element} (h : gfSquare e = e) : e = 0x00#8 ∨ e = 0x01#8 := by
  revert e
  decide

theorem gfPower_255 {a : Element} (h : a ≠ 0x00#8) : gfPower a 255 = 0x01#8 := by
  have hidem : gfSquare (gfPower a 255) = gfPower a 255 := by
    calc gfSquare (gfPower a 255) = gfPower a (256 + 254) := (gfPower_add a 255 255).symm
      _ = gfMul (gfPower a 254) a := by rw [gfPower_add, gfPower_256, gfMul_comm]
  rcases eq_zero_or_one_of_gfSquare_eq hidem with hzero | hone
  · have ha : a = 0x00#8 := by
      calc a = gfMul (gfPower a 255) a := (gfPower_256 a).symm
        _ = 0x00#8 := by rw [hzero, zero_gfMul]
    exact absurd ha h
  · exact hone

theorem gfMul_gfPower_254 {a : Element} (h : a ≠ 0x00#8) : gfMul a (gfPower a 254) = 0x01#8 := by
  rw [gfMul_comm]
  exact gfPower_255 h

theorem gfMul_left_cancel {a b c : Element} (h : gfMul a b = 0x01#8) (hc : gfMul a c = 0x01#8) : b = c := by
  calc b = gfMul b (gfMul a c) := by rw [hc, gfMul_one]
    _ = gfMul (gfMul a b) c := by rw [← gfMul_assoc, gfMul_comm b a]
    _ = c := by rw [h, one_gfMul]

/-- `gf_inv` answers the one element whose product with the operand is `0x01`. -/
theorem gfInv_eq_some_iff (a x : Element) : gfInv a = some x ↔ gfMul a x = 0x01#8 := by
  by_cases ha : a = 0x00#8
  · rw [(gfInv_eq_none a).2 ha, ha, zero_gfMul]
    exact iff_of_false (by simp) (by decide)
  · rw [gfInv_of_ne_zero ha, Option.some_inj]
    constructor
    · rintro rfl
      exact gfMul_gfPower_254 ha
    · exact gfMul_left_cancel (gfMul_gfPower_254 ha)

/-- Settles O7: each law is one of `gf_mul` by `gfInv_eq_some_iff`. -/
theorem fieldInverseLaws : Obligations.FieldInverseLaws := by
  refine ⟨fun a ha => ⟨_, gfInv_of_ne_zero ha, gfMul_gfPower_254 ha, ?_⟩, rfl, ?_, ?_, fun a b x hx => ?_⟩
  · rw [gfInv_eq_some_iff, gfMul_comm]
    exact gfMul_gfPower_254 ha
  · rw [gfInv_eq_some_iff]
    decide
  · rw [gfInv_eq_some_iff]
    decide
  · rw [gfInv_eq_some_iff, gfMul_comm] at hx
    rw [gfMul_assoc, hx, gfMul_one]

end Sys2Proof.Machine
end

section
/-! PROOFS. The loop of `gf_mul` is the carry-less product reduced modulo `0x11B` (40_field.md R122). -/

namespace Sys2Proof.Machine

/-! ## The reduction -/

/-- One step of the reduction, at bit `8 + n`. -/
theorem reduceModulus_succ (w : BitVec 16) (n : Nat) :
    reduceModulus w (n + 1) = reduceModulus (w ^^^ (if w.getLsbD (8 + n) then 0x11B#16 <<< n else 0#16)) n := by
  rw [reduceModulus]
  split
  · rfl
  · rw [BitVec.xor_zero]

theorem reduceModulus_xor (v w : BitVec 16) (n : Nat) :
    reduceModulus (v ^^^ w) n = reduceModulus v n ^^^ reduceModulus w n := by
  induction n generalizing v w with
  | zero => rfl
  | succ n ih =>
    rw [reduceModulus_succ, reduceModulus_succ, reduceModulus_succ, ← ih, BitVec.getLsbD_xor, ite_xor]
    congr 1
    ac_rfl

/-- A word of eight bits is reduced already. -/
theorem reduceModulus_setWidth (a : Element) (n : Nat) :
    reduceModulus (BitVec.setWidth 16 a) n = BitVec.setWidth 16 a := by
  induction n with
  | zero => rfl
  | succ n ih =>
    have hclear : (BitVec.setWidth 16 a).getLsbD (8 + n) = false := by
      rw [BitVec.getLsbD_setWidth, BitVec.getLsbD_of_ge a _ (by omega), Bool.and_false]
    rw [reduceModulus, hclear, if_neg (by decide), ih]

/-- Reducing a word shifted by one bit is one step of reduction after the reduction of the word. -/
theorem reduceModulus_shiftLeft (w : BitVec 16) (n : Nat) (h : n ≤ 7) :
    reduceModulus (w <<< 1) (n + 1) = reduceModulus (reduceModulus w n <<< 1) 1 := by
  induction n generalizing w with
  | zero => rfl
  | succ n ih =>
    have hbit : (w <<< 1).getLsbD (8 + (n + 1)) = w.getLsbD (8 + n) := by
      rw [BitVec.getLsbD_shiftLeft]
      simp
      omega
    rw [reduceModulus_succ _ (n + 1), hbit, reduceModulus_succ w n, ← ih _ (by omega)]
    congr 1
    cases w.getLsbD (8 + n) <;> simp [BitVec.shiftLeft_xor_distrib, ← BitVec.shiftLeft_add]

/-- The low byte of one reduction step on a shifted word is the shift of the low byte. -/
theorem setWidth_reduceModulus_one (w : BitVec 16) :
    BitVec.setWidth 8 (reduceModulus (w <<< 1) 1) = gfShift (BitVec.setWidth 8 w) := by
  have hbit : (w <<< 1).getLsbD 8 = (BitVec.setWidth 8 w).getLsbD 7 := by simp
  have hshl : BitVec.setWidth 8 (w <<< 1) = BitVec.setWidth 8 w <<< 1 := by ext; simp
  rw [reduceModulus_succ, Nat.add_zero, hbit, reduceModulus, BitVec.setWidth_xor, hshl, gfShift_eq]
  cases (BitVec.setWidth 8 w).getLsbD 7 <;> rfl

/-- The carry-less product of an element and `x^n` reduces to the element shifted `n` times. -/
theorem reduceModulus_shiftedElement (a : Element) (n : Nat) (h : n ≤ 7) :
    BitVec.setWidth 8 (reduceModulus (BitVec.setWidth 16 a <<< n) 7) = gfShift^[n] a := by
  induction n with
  | zero => simp [reduceModulus_setWidth]
  | succ n ih =>
    have htop : (BitVec.setWidth 16 a <<< n).getLsbD 14 = false := by
      rw [BitVec.getLsbD_shiftLeft, BitVec.getLsbD_setWidth, BitVec.getLsbD_of_ge a _ (by omega)]
      simp
    have hshort : reduceModulus (BitVec.setWidth 16 a <<< n) 7 = reduceModulus (BitVec.setWidth 16 a <<< n) 6 := by
      rw [reduceModulus, htop, if_neg (by decide)]
    rw [Function.iterate_succ_apply', ← ih (by omega), hshort, BitVec.shiftLeft_add,
      reduceModulus_shiftLeft _ 6 (by decide), setWidth_reduceModulus_one]

/-! ## The product -/

/-- After `n` repetitions the loop holds the reduced carry-less product of `a` and the low `n` bits of `b`. -/
theorem gfMulLoop_eq_reduceModulus (a b : Element) (n : Nat) (h : n ≤ 8) :
    gfMulLoop n 0x00#8 a b = BitVec.setWidth 8 (reduceModulus (carrylessProduct a b n) 7) := by
  induction n with
  | zero => exact (congrArg (BitVec.setWidth 8) (reduceModulus_setWidth 0x00#8 7)).symm
  | succ n ih =>
    rw [gfMulLoop_succ, ih (by omega), carrylessProduct, reduceModulus_xor, BitVec.setWidth_xor]
    refine congrArg (gfAdd _) ?_
    cases b.getLsbD n with
    | false => exact (congrArg (BitVec.setWidth 8) (reduceModulus_setWidth 0x00#8 7)).symm
    | true => exact (reduceModulus_shiftedElement a n (by omega)).symm

/-- Settles O5: the loop's eight repetitions take all bits of `b`. -/
theorem gfMulIsCarrylessProductModulo : Obligations.GfMulIsCarrylessProductModulo := fun a b =>
  gfMulLoop_eq_reduceModulus a b 8 (by decide)

end Sys2Proof.Machine
end

section
/-! PROOFS. The instructions of the field unit (40_field.md R126 to R129): the words of their rows, the element they write, and
its frame. -/

namespace Sys2Proof.Machine

/-- The words of a row are those its pattern and mask name, and every other word of its opcode is illegal. -/
theorem encodedAs_row (m : Mnemonic) : EncodedAs m m.pattern m.mask := by
  intro w
  have hmatch : (w &&& m.mask) = m.pattern ↔ ∃ i, decode w = .ok i ∧ i.mnemonic = m := by
    rw [← matches_iff_decodes, Mnemonic.matches, beq_iff_eq]
  refine ⟨hmatch, fun hop hne => (not_accepts_iff _).1 ?_⟩
  rintro ⟨i, hi⟩
  have hrow : i.mnemonic = m := op_injective <| by
    rw [op_mnemonic_of_decode hi, hop, pattern_eq, opField_formatN]
  exact hne (hmatch.2 ⟨i, hi, hrow⟩)

/-- An instruction that writes an element register and retires answers a next state, with the frame of `OnlyElement`. -/
theorem retire_writeE (d : EReg) (x : Element) (s : State) :
    ∃ t, (s.writeE d x).retire = .next t ∧ OnlyElement d x s t :=
  ⟨_, rfl, readE_writeE_same s d x, fun i hi => readE_writeE_ne s d i x hi, fun _ => rfl, fun _ => rfl, fun _ => rfl,
    ⟨rfl, rfl, rfl, rfl, rfl⟩, ⟨rfl, rfl, rfl, rfl, rfl, rfl, rfl, rfl⟩, rfl⟩

theorem OnlyElement.read {d : EReg} {x : Element} {s t : State} (h : OnlyElement d x s t) : t.readE d = x := h.1

/-- An element register written with the value it holds: only `pc` changes. -/
theorem OnlyElement.onlyPc {d : EReg} {s t : State} (h : OnlyElement d (s.readE d) s t) : OnlyPc (s.pc + 1#16) s t := by
  obtain ⟨hd, hE, hrest⟩ := h
  refine ⟨fun i => ?_, hrest⟩
  by_cases hi : i = d
  · rw [hi, hd]
  · exact hE i hi

/-! ## GADD, GNEG, GMUL -/

/-- Settles O1: both write one element and retire. -/
theorem gaddAndGnegWriteTheirElement : Obligations.GaddAndGnegWriteTheirElement := by
  refine ⟨encodedAs_row .gadd, encodedAs_row .gneg, rfl, rfl, fun _ _ _ => rfl, fun d a b s => ?_, fun d a s => ?_⟩
  · obtain ⟨t, ht, hw⟩ := retire_writeE d (gfAdd (s.readE a) (s.readE b)) s
    refine ⟨t, ht, hw, fun hab => ?_, fun hb => ?_, fun ha hb => ?_⟩
    · rw [hw.read, hab, gfAdd_self]
    · rw [hw.read, hb, gfAdd_zero]
    · rw [hw.read, ha, hb]
      decide
  · obtain ⟨t, ht, hw⟩ := retire_writeE d (s.readE a) s
    refine ⟨t, ht, hw, ?_⟩
    rintro rfl
    exact hw.onlyPc

/-- Settles O2: GMUL writes one element and retires. -/
theorem gmulWritesTheProduct : Obligations.GmulWritesTheProduct := by
  refine ⟨encodedAs_row .gmul, rfl, fun d a b s => ?_⟩
  obtain ⟨t, ht, hw⟩ := retire_writeE d (gfMul (s.readE a) (s.readE b)) s
  refine ⟨t, ht, hw, ?_, fun hb => ?_, fun ha hb => ?_, fun ha hb => ?_, fun ha hb => ?_⟩
  · rintro (ha | hb)
    · rw [hw.read, ha, zero_gfMul]
    · rw [hw.read, hb, gfMul_zero]
  · rw [hw.read, hb, gfMul_one]
  all_goals
    rw [hw.read, ha, hb]
    decide

/-! ## GINV -/

/-- A known product that is `0x01` names the inverse. -/
theorem eq_of_gfInv_eq_some {a b x y : Element} (hx : gfInv a = some x) (hab : a = b) (hy : gfMul b y = 0x01#8) : x = y :=
  gfMul_left_cancel ((gfInv_eq_some_iff a x).1 hx) (hab ▸ hy)

theorem execGinv_of_ne_zero (d a : EReg) {s : State} (ha : s.readE a ≠ 0x00#8) :
    execGinv d a s = (s.writeE d (gfPower (s.readE a) 254)).retire := by
  rw [execGinv, gfInv_of_ne_zero ha]

theorem execGinv_of_eq_zero (d a : EReg) {s : State} (ha : s.readE a = 0x00#8) :
    execGinv d a s = .next (s.stop .zeroInverse s.pc (encode (.ginv d a))) := by
  rw [execGinv, (gfInv_eq_none _).2 ha]
  rfl

/-- Settles O3: GINV writes one element and retires where `gf_inv` is defined, and takes the stop action where it is not. -/
theorem ginvWritesTheInverseOrFaults : Obligations.GinvWritesTheInverseOrFaults := by
  refine ⟨encodedAs_row .ginv, rfl, fun d a s ha => ?_,
    fun d a s ha => ⟨_, execGinv_of_eq_zero d a ha, stopped_stop s .zeroInverse s.pc (encode (.ginv d a))⟩⟩
  have hx := gfInv_of_ne_zero ha
  obtain ⟨t, ht, hw⟩ := retire_writeE d (gfPower (s.readE a) 254) s
  refine ⟨_, t, hx, (execGinv_of_ne_zero d a ha).trans ht, hw, ?_, ?_, ?_, ?_, ?_⟩
  all_goals exact fun h => eq_of_gfInv_eq_some hx h (by decide)

end Sys2Proof.Machine
end

section
/-! PROOFS. Finite sums in the field, and `poly_eval` as the power sum of its coefficients (41_polynomial.md R140). -/

namespace Sys2Proof.Machine

/-! ## Finite sums -/

theorem gfSum_congr {f g : Nat → Element} {n : Nat} (h : ∀ k < n, f k = g k) : gfSum f n = gfSum g n := by
  induction n with
  | zero => rfl
  | succ n ih => rw [gfSum, gfSum, ih fun k hk => h k (by omega), h n (by omega)]

@[simp] theorem gfSum_zero (n : Nat) : gfSum (fun _ => 0x00#8) n = 0x00#8 := by
  induction n with
  | zero => rfl
  | succ n ih => rw [gfSum, ih, gfAdd_zero]

theorem gfSum_gfAdd (f g : Nat → Element) (n : Nat) :
    gfSum (fun k => gfAdd (f k) (g k)) n = gfAdd (gfSum f n) (gfSum g n) := by
  induction n with
  | zero => exact (gfAdd_zero _).symm
  | succ n ih => rw [gfSum, gfSum, gfSum, ih, gfAdd_gfAdd_comm]

theorem gfMul_gfAdd_left (a b c : Element) : gfMul (gfAdd a b) c = gfAdd (gfMul a c) (gfMul b c) :=
  (shiftLinear_gfMul_left c).1 a b

theorem gfMul_gfSum (c : Element) (f : Nat → Element) (n : Nat) :
    gfMul c (gfSum f n) = gfSum (fun k => gfMul c (f k)) n := by
  induction n with
  | zero => exact gfMul_zero c
  | succ n ih => rw [gfSum, gfSum, gfMul_gfAdd_right, ih]

theorem gfSum_gfMul (f : Nat → Element) (n : Nat) (c : Element) :
    gfMul (gfSum f n) c = gfSum (fun k => gfMul (f k) c) n := by
  simp only [gfMul_comm _ c, gfMul_gfSum]

theorem gfSum_comm (f : Nat → Nat → Element) (m n : Nat) :
    gfSum (fun i => gfSum (f i) n) m = gfSum (fun j => gfSum (fun i => f i j) m) n := by
  induction m with
  | zero => exact (gfSum_zero n).symm
  | succ m ih => simp only [gfSum, ih, gfSum_gfAdd]

theorem gfSum_succ_left (f : Nat → Element) (n : Nat) :
    gfSum f (n + 1) = gfAdd (f 0) (gfSum (fun k => f (k + 1)) n) := by
  induction n with
  | zero => exact gfAdd_comm _ _
  | succ n ih => rw [gfSum, ih, gfAdd_assoc, gfSum]

/-- Terms that are zero add nothing. -/
theorem gfSum_of_le {f : Nat → Element} {m n : Nat} (hmn : m ≤ n) (hf : ∀ k, m ≤ k → f k = 0x00#8) :
    gfSum f n = gfSum f m := by
  induction n, hmn using Nat.le_induction with
  | base => rfl
  | succ n hmn ih => rw [gfSum, hf n hmn, gfAdd_zero, ih]

theorem gfSum_ite_eq (c : Element) (k n : Nat) :
    gfSum (fun j => if j = k then c else 0x00#8) n = if k < n then c else 0x00#8 := by
  induction n with
  | zero => rfl
  | succ n ih =>
    rw [gfSum, ih]
    rcases Nat.lt_trichotomy n k with h | rfl | h
    · rw [if_neg (by omega), if_neg (by omega), if_neg (by omega), gfAdd_zero]
    · rw [if_neg (by omega), if_pos rfl, if_pos (by omega), zero_gfAdd]
    · rw [if_pos h, if_neg (by omega), if_pos (by omega), gfAdd_zero]

/-! ## `poly_eval` -/

@[simp] theorem polyEval_nil (x : Element) : polyEval [] x = 0x00#8 := rfl

theorem polyEval_cons (c : Element) (p : Poly) (x : Element) :
    polyEval (c :: p) x = gfAdd (gfMul (polyEval p x) x) c := rfl

theorem polyEval_eq_gfSum (p : Poly) (x : Element) :
    polyEval p x = gfSum (fun k => gfMul (coeff p k) (gfPower x k)) p.length := by
  induction p with
  | nil => rfl
  | cons c p ih =>
    have hhead : gfMul (coeff (c :: p) 0) (gfPower x 0) = c := gfMul_one c
    have htail : ∀ k, gfMul (coeff (c :: p) (k + 1)) (gfPower x (k + 1)) = gfMul (gfMul (coeff p k) (gfPower x k)) x :=
      fun k => (gfMul_assoc _ _ _).symm
    rw [polyEval_cons, ih, List.length_cons, gfSum_succ_left, hhead, gfAdd_comm]
    simp only [htail, gfSum_gfMul]

/-- The power sum may run past the end of the sequence. -/
theorem polyEval_eq_gfSum_of_length_le {p : Poly} {n : Nat} (h : p.length ≤ n) (x : Element) :
    polyEval p x = gfSum (fun k => gfMul (coeff p k) (gfPower x k)) n := by
  rw [polyEval_eq_gfSum, gfSum_of_le h fun k hk => by rw [coeff_of_le p k hk, zero_gfMul]]

theorem polyEval_append (p q : Poly) (x : Element) :
    polyEval (p ++ q) x = gfAdd (polyEval p x) (gfMul (polyEval q x) (gfPower x p.length)) := by
  induction p with
  | nil => rw [List.nil_append, polyEval_nil, zero_gfAdd, List.length_nil, gfPower, gfMul_one]
  | cons c p ih =>
    rw [List.cons_append, polyEval_cons, polyEval_cons, ih, gfMul_gfAdd_left, List.length_cons, gfPower, gfMul_assoc,
      gfAdd_assoc, gfAdd_comm _ c, ← gfAdd_assoc]

theorem polyEval_singleton (c x : Element) : polyEval [c] x = c := by
  rw [polyEval_cons, polyEval_nil, zero_gfMul, zero_gfAdd]

@[simp] theorem polyEval_replicate_zero (n : Nat) (x : Element) : polyEval (List.replicate n 0x00#8) x = 0x00#8 := by
  rw [polyEval_eq_gfSum]
  simp only [coeff_replicate_zero, zero_gfMul, gfSum_zero]

/-- Settles O11: the power sum by induction on the sequence, the top coefficient by evaluation of an appended sequence. -/
theorem polyEvalIsThePowerSum : Obligations.PolyEvalIsThePowerSum :=
  ⟨polyEval_eq_gfSum, polyEval_nil, fun p c x => by rw [polyEval_append, polyEval_singleton]⟩

end Sys2Proof.Machine
end

section
/-! PROOFS. The polynomial functions by coefficient and their laws (41_polynomial.md R141 to R144). Two sequences of one length
with one coefficient function are equal. Both the coefficients and the values of a product come from one fact: a function of
the accumulator that `addInto` changes by an added term is, at the product, the sum of those terms. -/

namespace Sys2Proof.Machine

/-! ## Sequences by coefficient -/

theorem getElem?_eq_some_coeff {p : Poly} {k : Nat} (h : k < p.length) : p[k]? = some (coeff p k) := by
  rw [coeff_of_lt p k h, List.getElem?_eq_getElem h]

theorem poly_ext {p q : Poly} (hlen : p.length = q.length) (hcoeff : ∀ k, coeff p k = coeff q k) : p = q :=
  List.ext_getElem hlen fun k hp hq => by rw [← coeff_of_lt p k hp, ← coeff_of_lt q k hq, hcoeff]

/-- Zeros at the end of a sequence are the coefficients it reads beyond its end. -/
theorem coeff_append_replicate_zero (p : Poly) (n k : Nat) : coeff (p ++ List.replicate n 0x00#8) k = coeff p k := by
  by_cases h : k < p.length
  · rw [coeff_of_lt _ _ (by rw [List.length_append]; omega), coeff_of_lt p k h, List.getElem_append_left h]
  · have hzero := coeff_replicate_zero n (k - p.length)
    rw [coeff, List.getD_append_right _ _ _ _ (by omega), coeff_of_le p k (by omega)]
    exact hzero

/-! ## `poly_add` -/

theorem polyAdd_comm (p q : Poly) : polyAdd p q = polyAdd q p :=
  poly_ext (by simp only [length_polyAdd, Nat.max_comm]) fun k => by
    rw [coeff_polyAdd, coeff_polyAdd, gfAdd_comm]

theorem polyAdd_assoc (p q r : Poly) : polyAdd (polyAdd p q) r = polyAdd p (polyAdd q r) :=
  poly_ext (by simp only [length_polyAdd, Nat.max_assoc]) fun k => by
    simp only [coeff_polyAdd, gfAdd_assoc]

theorem polyAdd_self (p : Poly) : polyAdd p p = List.replicate p.length 0x00#8 :=
  poly_ext (by simp) fun k => by rw [coeff_polyAdd, gfAdd_self, coeff_replicate_zero]

theorem polyAdd_replicate_zero (p : Poly) (n : Nat) :
    polyAdd p (List.replicate n 0x00#8) = p ++ List.replicate (n - p.length) 0x00#8 :=
  poly_ext (by simp only [length_polyAdd, List.length_append, List.length_replicate]; omega) fun k => by
    rw [coeff_polyAdd, coeff_replicate_zero, gfAdd_zero, coeff_append_replicate_zero]

@[simp] theorem polyAdd_nil (p : Poly) : polyAdd p [] = p :=
  poly_ext (by simp) fun k => by rw [coeff_polyAdd, coeff_of_le [] k (Nat.zero_le k), gfAdd_zero]

@[simp] theorem nil_polyAdd (p : Poly) : polyAdd [] p = p := by rw [polyAdd_comm, polyAdd_nil]

theorem polyEval_polyAdd (p q : Poly) (x : Element) :
    polyEval (polyAdd p q) x = gfAdd (polyEval p x) (polyEval q x) := by
  rw [polyEval_eq_gfSum, length_polyAdd, polyEval_eq_gfSum_of_length_le (Nat.le_max_left p.length q.length),
    polyEval_eq_gfSum_of_length_le (Nat.le_max_right p.length q.length)]
  simp only [coeff_polyAdd, gfMul_gfAdd_left, gfSum_gfAdd]

/-! ## `poly_scale` -/

theorem polyScale_zero (p : Poly) : polyScale p 0x00#8 = List.replicate p.length 0x00#8 := by
  simp only [polyScale, gfMul_zero, List.map_const']

theorem polyScale_one (p : Poly) : polyScale p 0x01#8 = p := by
  simp only [polyScale, gfMul_one, List.map_id']

theorem polyEval_polyScale (p : Poly) (c x : Element) : polyEval (polyScale p c) x = gfMul c (polyEval p x) := by
  rw [polyEval_eq_gfSum, length_polyScale, polyEval_eq_gfSum, gfMul_gfSum]
  refine gfSum_congr fun k hk => ?_
  rw [coeff_polyScale p c k hk, gfMul_comm _ c, gfMul_assoc]

/-- Settles O12: lengths and coefficients of the two functions. -/
theorem polyAddAndScaleByCoefficient : Obligations.PolyAddAndScaleByCoefficient := by
  have hcoeff : ∀ (p : Poly) (k : Nat), (if k < p.length then p.getD k 0x00#8 else 0x00#8) = coeff p k := by
    intro p k
    split
    · rfl
    · next h => exact (coeff_of_le p k (Nat.le_of_not_lt h)).symm
  refine ⟨length_polyAdd, fun p q k h => ?_, length_polyScale, fun p x k h => ?_, polyScale_zero⟩
  · rw [hcoeff, hcoeff, getElem?_eq_some_coeff (by rwa [length_polyAdd]), coeff_polyAdd, gfAdd]
  · rw [getElem?_eq_some_coeff (by rwa [length_polyScale]), coeff_polyScale p x k h, coeff_of_lt p k h]

/-! ## `poly_mul` -/

/-- A function of the accumulator to which every pass adds a term has, after the loop, the sum of the terms added. -/
theorem foldl_range_eq_gfSum {F : Poly → Element} {op : Poly → Nat → Poly} {g : Nat → Element} {n : Nat} {r : Poly}
    (hlen : ∀ r j, (op r j).length = r.length)
    (hF : ∀ r' j, j < n → r'.length = r.length → F (op r' j) = gfAdd (F r') (g j)) :
    ((List.range n).foldl op r).length = r.length ∧ F ((List.range n).foldl op r) = gfAdd (F r) (gfSum g n) := by
  induction n with
  | zero => exact ⟨rfl, (gfAdd_zero _).symm⟩
  | succ n ih =>
    obtain ⟨ihlen, ihF⟩ := ih fun r' j hj => hF r' j (by omega)
    rw [List.range_succ, List.foldl_append, List.foldl_cons, List.foldl_nil]
    exact ⟨(hlen _ _).trans ihlen, by rw [hF _ n (by omega) ihlen, ihF, gfAdd_assoc, gfSum]⟩

section
variable {F : Poly → Element} {w : Nat → Element → Element}
  (hF : ∀ r k c, k < r.length → F (addInto r k c) = gfAdd (F r) (w k c))
include hF

theorem map_polyMulRow (p q : Poly) {r : Poly} {i : Nat} (hi : i + q.length ≤ r.length) :
    F (polyMulRow p q r i) =
      gfAdd (F r) (gfSum (fun j => w (i + j) (gfMul (coeff p i) (coeff q j))) q.length) :=
  (foldl_range_eq_gfSum (fun r' j => length_addInto r' (i + j) (gfMul (coeff p i) (coeff q j)))
    fun r' j (hj : j < q.length) (hr : r'.length = r.length) => hF r' (i + j) _ (by omega)).2

/-- A function that is zero at zeros and to which `addInto` adds a term is, at a product, the sum of the terms of all pairs of
coefficients. -/
theorem map_polyMul (hzero : ∀ n, F (List.replicate n 0x00#8) = 0x00#8) (p q : Poly) :
    F (polyMul p q) =
      gfSum (fun i => gfSum (fun j => w (i + j) (gfMul (coeff p i) (coeff q j))) q.length) p.length := by
  by_cases h : p.length = 0 ∨ q.length = 0
  · rw [polyMul, if_pos h, show F [] = 0x00#8 from hzero 0]
    rcases h with h | h <;> simp [h, gfSum]
  · rw [polyMul, if_neg h]
    have hsum := foldl_range_eq_gfSum (r := List.replicate (p.length + q.length - 1) 0x00#8)
      (fun r i => length_polyMulRow p q r i) fun r' i (hi : i < p.length) hr => map_polyMulRow hF p q (by
        rw [hr, List.length_replicate]
        omega)
    rw [hsum.2, hzero, zero_gfAdd]

end

/-- The convolution, at every index and for every operand. -/
theorem coeff_polyMul (p q : Poly) (k : Nat) :
    coeff (polyMul p q) k =
      gfSum (fun i => gfSum (fun j => if i + j = k then gfMul (coeff p i) (coeff q j) else 0x00#8) q.length) p.length := by
  refine map_polyMul (F := fun r => coeff r k) (w := fun m c => if m = k then c else 0x00#8) (fun r m c hm => ?_)
    (fun n => coeff_replicate_zero n k) p q
  simp only [coeff_addInto r m k c hm]
  by_cases h : m = k
  · rw [if_pos h.symm, if_pos h, h]
  · rw [if_neg (Ne.symm h), if_neg h, gfAdd_zero]

theorem length_polyMul_of_ne_nil {p q : Poly} (hp : p ≠ []) (hq : q ≠ []) :
    (polyMul p q).length = p.length + q.length - 1 := by
  rw [length_polyMul, if_neg (by simp [hp, hq])]

/-- Settles O13: the length and the convolution. -/
theorem polyMulIsTheConvolution : Obligations.PolyMulIsTheConvolution := by
  refine ⟨fun p => ⟨polyMul_nil_right p, polyMul_nil_left p⟩, fun p q hp hq => ?_⟩
  have hlen := length_polyMul_of_ne_nil hp hq
  exact ⟨hlen, fun k hk => by rw [getElem?_eq_some_coeff (by rwa [hlen]), coeff_polyMul]⟩

theorem polyMul_comm (p q : Poly) : polyMul p q = polyMul q p := by
  refine poly_ext (by simp only [length_polyMul, or_comm, Nat.add_comm]) fun k => ?_
  rw [coeff_polyMul, coeff_polyMul, gfSum_comm]
  simp only [Nat.add_comm, gfMul_comm]

theorem polyEval_addInto (x : Element) (r : Poly) (k : Nat) (c : Element) (h : k < r.length) :
    polyEval (addInto r k c) x = gfAdd (polyEval r x) (gfMul c (gfPower x k)) := by
  have hterm : ∀ j, gfMul (coeff (addInto r k c) j) (gfPower x j) =
      gfAdd (gfMul (coeff r j) (gfPower x j)) (if j = k then gfMul c (gfPower x k) else 0x00#8) := by
    intro j
    rw [coeff_addInto r k j c h]
    by_cases hj : j = k
    · rw [if_pos hj, if_pos hj, hj, gfMul_gfAdd_left]
    · rw [if_neg hj, if_neg hj, gfAdd_zero]
  rw [polyEval_eq_gfSum, length_addInto, polyEval_eq_gfSum r]
  simp only [hterm, gfSum_gfAdd, gfSum_ite_eq, if_pos h]

theorem polyEval_polyMul (p q : Poly) (x : Element) : polyEval (polyMul p q) x = gfMul (polyEval p x) (polyEval q x) := by
  have hterm : ∀ i j, gfMul (gfMul (coeff p i) (coeff q j)) (gfPower x (i + j)) =
      gfMul (gfMul (coeff p i) (gfPower x i)) (gfMul (coeff q j) (gfPower x j)) := fun i j => by
    rw [gfPower_add, gfMul_gfMul_comm]
  rw [map_polyMul (F := fun r => polyEval r x) (polyEval_addInto x) (fun n => polyEval_replicate_zero n x),
    polyEval_eq_gfSum p, polyEval_eq_gfSum q]
  simp only [hterm, ← gfMul_gfSum, ← gfSum_gfMul]

/-- Settles O14: the laws one by one, each by coefficient or by its power sum. -/
theorem polynomialRingLaws : Obligations.PolynomialRingLaws :=
  ⟨polyAdd_comm, polyAdd_assoc, polyAdd_nil, polyAdd_replicate_zero, fun _ _ => length_polyMul_of_ne_nil, polyEval_polyAdd,
    polyEval_polyMul, polyEval_polyScale, polyMul_comm⟩

end Sys2Proof.Machine
end

section
/-! PROOFS. The instructions of the polynomial units (41_polynomial.md R146 to R150): the words of their rows, what they write,
its frame, and CAPACITY. -/

namespace Sys2Proof.Machine

/-- An instruction that writes a vector register and retires answers a next state, with the frame of `OnlyVector`. -/
theorem retire_writeV (d : VReg) (xs : Poly) (s : State) : ∃ t, (s.writeV d xs).retire = .next t ∧ OnlyVector d xs s t :=
  ⟨_, rfl, readV_writeV_same s d xs, fun i hi => readV_writeV_ne s d i xs hi, fun _ => rfl, fun _ => rfl, fun _ => rfl,
    ⟨rfl, rfl, rfl, rfl, rfl⟩, ⟨rfl, rfl, rfl, rfl, rfl, rfl, rfl, rfl⟩, rfl⟩

theorem OnlyVector.read {d : VReg} {xs : Poly} {s t : State} (h : OnlyVector d xs s t) : t.readV d = xs := h.1

/-- A meaning that raises a fault takes the stop action at its own `pc` and word. -/
theorem raises_of_exec_eq_raise {c : Cause} {i : Instr} {s : State} (h : exec i s = s.raise c i) : Raises c i s :=
  ⟨_, h, stopped_stop s c s.pc (encode i)⟩

/-! ## PEVAL -/

theorem polyEval_cons_zero (c : Element) (p : Poly) : polyEval (c :: p) 0x00#8 = c := by
  rw [polyEval_cons, gfMul_zero, zero_gfAdd]

theorem polyEval_append_replicate_zero (p : Poly) (n : Nat) (x : Element) :
    polyEval (p ++ List.replicate n 0x00#8) x = polyEval p x := by
  rw [polyEval_append, polyEval_replicate_zero, zero_gfMul, gfAdd_zero]

/-- Settles O8: PEVAL writes one element and retires. -/
theorem pevalWritesTheValue : Obligations.PevalWritesTheValue := by
  refine ⟨encodedAs_row .peval, rfl, fun d a b s => ?_⟩
  obtain ⟨t, ht, hw⟩ := retire_writeE d (polyEval (s.readV a) (s.readE b)) s
  refine ⟨t, ht, hw, fun ha => ?_, fun c p ha hb => ?_, fun p n ha => ?_, fun ha hb => ?_⟩
  · rw [hw.read, ha, polyEval_nil]
  · rw [hw.read, ha, hb, polyEval_cons_zero]
  · rw [hw.read, ha, polyEval_append_replicate_zero]
  · rw [hw.read, ha, hb]
    decide

/-! ## PADD and PSCALE -/

/-- Settles O9: both write one vector and retire. -/
theorem paddAndPscaleWriteTheirPolynomial : Obligations.PaddAndPscaleWriteTheirPolynomial := by
  refine ⟨encodedAs_row .padd, encodedAs_row .pscale, rfl, rfl, fun _ _ _ => rfl, fun d a b s => ?_, fun d a b s => ?_⟩
  · obtain ⟨t, ht, hw⟩ := retire_writeV d (polyAdd (s.readV a) (s.readV b)) s
    refine ⟨t, ht, hw, fun hab => ?_, fun ha => ?_, fun hb => ?_, fun ha hb => ?_⟩
    · rw [hw.read, hab, polyAdd_self]
    · rw [hw.read, ha, nil_polyAdd]
    · rw [hw.read, hb, polyAdd_nil]
    · rw [hw.read, ha, hb]
      decide
  · obtain ⟨t, ht, hw⟩ := retire_writeV d (polyScale (s.readV a) (s.readE b)) s
    refine ⟨t, ht, hw, fun hb => ?_, fun hb => ?_, fun ha => ?_, fun ha hb => ?_⟩
    · rw [hw.read, hb, polyScale_zero]
    · rw [hw.read, hb, polyScale_one]
    · rw [hw.read, ha]
      rfl
    · rw [hw.read, ha, hb]
      decide

/-! ## PMUL -/

/-- PMUL faults exactly when the product is longer than `VLMAX`; an empty product never is. -/
theorem exec_pmul (d a b : VReg) (s : State) :
    exec (.pmul d a b) s =
      if s.params.vlmax < (polyMul (s.readV a) (s.readV b)).length then s.raise .capacity (.pmul d a b)
      else (s.writeV d (polyMul (s.readV a) (s.readV b))).retire := by
  refine if_congr ?_ rfl rfl
  rw [length_polyMul, fitsVector, decide_eq_true_iff]
  split <;> omega

/-- Settles O10: PMUL writes the product and retires where it fits, and takes the stop action where it does not. -/
theorem pmulWritesTheProductOrFaults : Obligations.PmulWritesTheProductOrFaults := by
  refine ⟨encodedAs_row .pmul, rfl, fun d a b s hfit => ?_, fun d a b s ha hb hlong => raises_of_exec_eq_raise ?_⟩
  · have hlen : ¬ s.params.vlmax < (polyMul (s.readV a) (s.readV b)).length := by
      rw [length_polyMul]
      rcases hfit with ha | hb | hle
      · simp [ha]
      · simp [hb]
      · split <;> omega
    obtain ⟨t, ht, hw⟩ := retire_writeV d (polyMul (s.readV a) (s.readV b)) s
    refine ⟨t, by rw [exec_pmul, if_neg hlen, ht], hw, ?_, fun ha hb => ?_, fun ha hb => ?_, fun ha hb => ?_⟩
    · rintro (ha | hb)
      · rw [hw.read, ha, polyMul_nil_left]
      · rw [hw.read, hb, polyMul_nil_right]
    · rw [hw.read, length_polyMul_of_ne_nil ha hb]
    all_goals
      rw [hw.read, ha, hb]
      decide
  · rw [exec_pmul, length_polyMul_of_ne_nil ha hb, if_pos hlong]

/-! ## Results and `VLMAX` -/

theorem fitsVector_eq_false {p : Params} {n : Nat} (h : p.vlmax < n) : fitsVector p n = false :=
  decide_eq_false (Nat.not_le_of_lt h)

theorem exec_vld_of_too_long (d : VReg) {len : Nat} (addr : Nat) {s : State} (h : s.params.vlmax < len) :
    exec (.vld d len addr) s = s.raise .capacity (.vld d len addr) :=
  if_pos (by simp [fitsVector_eq_false h])

theorem exec_vclr_of_too_long (d : VReg) {len : Nat} {s : State} (h : s.params.vlmax < len) :
    exec (.vclr d len) s = s.raise .capacity (.vclr d len) :=
  if_neg (by simp [fitsVector_eq_false h])

/-- Settles O15: sums, scaled sequences, bases and interpolants are no longer than an operand; the other lengths are checked. -/
theorem resultsFitVectorRegisters : Obligations.ResultsFitVectorRegisters := by
  intro s hs
  refine ⟨fun a b => ?_, fun a x => ?_, fun a i l hi hl => ?_, fun a b r hr => ?_, fun d a b hlong => ?_,
    fun d len addr hlong => ⟨?_, ?_⟩⟩
  · rw [length_polyAdd]
    exact max_le (hs a) (hs b)
  · rw [length_polyScale]
    exact hs a
  · rw [length_lagrangeBasis i _ l hi hl]
    exact hs a
  · exact (length_lagrangeInterp_le _ _ r hr).trans (hs a)
  · exact raises_of_exec_eq_raise (by rw [exec_pmul, if_pos hlong])
  · exact raises_of_exec_eq_raise (exec_vld_of_too_long d addr hlong)
  · exact raises_of_exec_eq_raise (exec_vclr_of_too_long d hlong)

end Sys2Proof.Machine
end

section
/-! PROOFS. The Lagrange bases (42_lagrange.md R160, R162). The numerator of the basis at `i` has the other sample points as its
roots, its top coefficient is `0x01`, and the denominator is the numerator's value at the point itself. -/

namespace Sys2Proof.Machine

/-! ## Zero in the field -/

theorem gfAdd_eq_zero_iff (a b : Element) : gfAdd a b = 0x00#8 ↔ a = b := BitVec.xor_eq_zero_iff

/-- The field has no zero divisors: a nonzero factor cancels by its inverse. -/
theorem gfMul_eq_zero_iff (a b : Element) : gfMul a b = 0x00#8 ↔ a = 0x00#8 ∨ b = 0x00#8 := by
  constructor
  · intro h
    by_cases ha : a = 0x00#8
    · exact .inl ha
    · right
      calc b = gfMul (gfMul a (gfPower a 254)) b := by rw [gfMul_gfPower_254 ha, one_gfMul]
        _ = gfMul (gfPower a 254) (gfMul a b) := by rw [gfMul_comm a, gfMul_assoc]
        _ = 0x00#8 := by rw [h, gfMul_zero]
  · rintro (rfl | rfl)
    · exact zero_gfMul b
    · exact gfMul_zero a

theorem ne_zero_of_gfMul_eq_one {a b : Element} (h : gfMul a b = 0x01#8) : b ≠ 0x00#8 := by
  rintro rfl
  rw [gfMul_zero] at h
  exact absurd h (by decide)

/-! ## The factor of one sample point -/

theorem polyEval_factor (c x : Element) : polyEval [gfNeg c, 0x01#8] x = gfAdd x c := by
  rw [polyEval_cons, polyEval_singleton, one_gfMul, gfNeg]

/-- A value that is zero with its coefficient needs no test against the length. -/
theorem ite_lt_length_of_coeff {p : Poly} {m : Nat} {d : Element} (hd : coeff p m = 0x00#8 → d = 0x00#8) :
    (if m < p.length then d else 0x00#8) = d := by
  split
  · rfl
  · next h => exact (hd (coeff_of_le p m (Nat.le_of_not_lt h))).symm

/-- Multiplication by `c + x` adds the sequence moved up by one place to `c` times the sequence. -/
theorem coeff_polyMul_factor_succ (p : Poly) (c : Element) (k : Nat) :
    coeff (polyMul p [c, 0x01#8]) (k + 1) = gfAdd (gfMul (coeff p (k + 1)) c) (coeff p k) := by
  have hrow : ∀ i, gfSum (fun j => if i + j = k + 1 then gfMul (coeff p i) (coeff [c, 0x01#8] j) else 0x00#8) 2 =
      gfAdd (if i = k + 1 then gfMul (coeff p (k + 1)) c else 0x00#8) (if i = k then coeff p k else 0x00#8) := by
    intro i
    rw [gfSum, gfSum, gfSum, zero_gfAdd]
    congr 1
    · by_cases h : i = k + 1 <;> simp [h, coeff]
    · by_cases h : i = k <;> simp [h, coeff]
  rw [coeff_polyMul, show [c, 0x01#8].length = 2 from rfl, gfSum_congr fun i _ => hrow i, gfSum_gfAdd, gfSum_ite_eq,
    gfSum_ite_eq, ite_lt_length_of_coeff fun h => by rw [h, zero_gfMul], ite_lt_length_of_coeff id]

/-! ## One pass of the loop -/

section
variable {xs : Poly} {i j : Nat} {nd : Poly × Element}

theorem basisStep_same : basisStep xs i nd i = nd := if_pos rfl

theorem basisStep_of_ne (h : j ≠ i) : basisStep xs i nd j =
    (polyMul nd.1 [gfNeg (coeff xs j), 0x01#8], gfMul nd.2 (gfAdd (coeff xs i) (coeff xs j))) := if_neg h

theorem polyEval_basisStep_of_ne (h : j ≠ i) (x : Element) :
    polyEval (basisStep xs i nd j).1 x = gfMul (polyEval nd.1 x) (gfAdd x (coeff xs j)) := by
  rw [basisStep_of_ne h, polyEval_polyMul, polyEval_factor]

theorem polyEval_basisStep_eq_zero_iff (x : Element) :
    polyEval (basisStep xs i nd j).1 x = 0x00#8 ↔ polyEval nd.1 x = 0x00#8 ∨ (j ≠ i ∧ coeff xs j = x) := by
  by_cases h : j = i
  · rw [h, basisStep_same]
    simp
  · rw [polyEval_basisStep_of_ne h, gfMul_eq_zero_iff, gfAdd_eq_zero_iff]
    simp [h, eq_comm]

end

/-- The running denominator is the running numerator's value at the point, and the numerator is monic: each pass keeps both. -/
structure MonicWithValue (x : Element) (nd : Poly × Element) : Prop where
  ne_nil : nd.1 ≠ []
  top : coeff nd.1 (nd.1.length - 1) = 0x01#8
  value : polyEval nd.1 x = nd.2

theorem MonicWithValue.basisStep {xs : Poly} {i : Nat} {nd : Poly × Element} (h : MonicWithValue (coeff xs i) nd) (j : Nat) :
    MonicWithValue (coeff xs i) (basisStep xs i nd j) := by
  by_cases hj : j = i
  · rw [hj, basisStep_same]
    exact h
  · have hpos : nd.1.length - 1 + 1 = nd.1.length := by
      have := List.length_pos_iff.2 h.ne_nil
      omega
    refine ⟨basisStep_ne_nil xs i j nd h.ne_nil, ?_, ?_⟩
    · rw [length_basisStep xs i j nd h.ne_nil, if_neg hj, basisStep_of_ne hj, Nat.add_sub_cancel, ← hpos,
        coeff_polyMul_factor_succ, h.top, hpos, coeff_of_le _ _ (Nat.le_refl _), zero_gfMul, zero_gfAdd]
    · rw [polyEval_basisStep_of_ne hj, h.value, basisStep_of_ne hj]

/-! ## The products after the loop -/

theorem polyEval_foldl_basisStep_eq_zero_iff (xs : Poly) (i : Nat) (js : List Nat) (nd : Poly × Element) (x : Element) :
    polyEval (js.foldl (basisStep xs i) nd).1 x = 0x00#8 ↔
      polyEval nd.1 x = 0x00#8 ∨ ∃ j ∈ js, j ≠ i ∧ coeff xs j = x := by
  induction js generalizing nd with
  | nil => simp
  | cons j js ih =>
    rw [List.foldl_cons, ih, polyEval_basisStep_eq_zero_iff, List.exists_mem_cons_iff, or_assoc]

/-- The roots of the numerator are the other sample points. -/
theorem polyEval_basisProducts_eq_zero_iff (i : Nat) (xs : Poly) (x : Element) :
    polyEval (basisProducts i xs).1 x = 0x00#8 ↔ ∃ j, j < xs.length ∧ j ≠ i ∧ coeff xs j = x := by
  rw [basisProducts, polyEval_foldl_basisStep_eq_zero_iff, polyEval_singleton]
  simp only [List.mem_range]
  exact or_iff_right (by decide)

theorem monicWithValue_basisProducts (i : Nat) (xs : Poly) : MonicWithValue (coeff xs i) (basisProducts i xs) := by
  have hfold : ∀ (js : List Nat) (nd : Poly × Element), MonicWithValue (coeff xs i) nd →
      MonicWithValue (coeff xs i) (js.foldl (basisStep xs i) nd) := by
    intro js
    induction js with
    | nil => exact fun _ h => h
    | cons j js ih => exact fun nd h => ih _ (h.basisStep j)
  exact hfold _ _ ⟨List.cons_ne_nil _ _, rfl, polyEval_singleton _ _⟩

/-! ## `lagrange_basis` -/

/-- A basis is the numerator scaled by the inverse of the denominator. -/
theorem lagrangeBasis_eq_ok (i : Nat) (xs l : Poly) : lagrangeBasis i xs = .ok l ↔
    ∃ x, gfMul (basisProducts i xs).2 x = 0x01#8 ∧ l = polyScale (basisProducts i xs).1 x := by
  simp only [← gfInv_eq_some_iff]
  unfold lagrangeBasis
  cases gfInv (basisProducts i xs).2 <;> simp [eq_comm]

/-- A basis fails, with ZERO_INVERSE, exactly when its point is repeated. -/
theorem lagrangeBasis_eq_error_iff (i : Nat) (xs : Poly) (c : Cause) : lagrangeBasis i xs = .error c ↔
    c = .zeroInverse ∧ ∃ j, j < xs.length ∧ j ≠ i ∧ coeff xs j = coeff xs i := by
  rw [lagrangeBasis_eq_error, ← (monicWithValue_basisProducts i xs).value, polyEval_basisProducts_eq_zero_iff]

theorem exists_lagrangeBasis {i : Nat} {xs : Poly} (h : ∀ j, j < xs.length → j ≠ i → coeff xs j ≠ coeff xs i) :
    ∃ l, lagrangeBasis i xs = .ok l := by
  cases hl : lagrangeBasis i xs with
  | ok l => exact ⟨l, rfl⟩
  | error c =>
    obtain ⟨-, j, hj, hne, heq⟩ := (lagrangeBasis_eq_error_iff i xs c).1 hl
    exact absurd heq (h j hj hne)

section
variable {i : Nat} {xs l : Poly} (hl : lagrangeBasis i xs = .ok l)
include hl

theorem polyEval_lagrangeBasis_self : polyEval l (coeff xs i) = 0x01#8 := by
  obtain ⟨x, hx, rfl⟩ := (lagrangeBasis_eq_ok i xs l).1 hl
  rw [polyEval_polyScale, (monicWithValue_basisProducts i xs).value, gfMul_comm, hx]

theorem polyEval_lagrangeBasis_of_ne {j : Nat} (hj : j < xs.length) (hne : j ≠ i) : polyEval l (coeff xs j) = 0x00#8 := by
  obtain ⟨x, -, rfl⟩ := (lagrangeBasis_eq_ok i xs l).1 hl
  rw [polyEval_polyScale, (polyEval_basisProducts_eq_zero_iff i xs _).2 ⟨j, hj, hne, rfl⟩, gfMul_zero]

theorem top_lagrangeBasis_ne_zero : coeff l (l.length - 1) ≠ 0x00#8 := by
  obtain ⟨x, hx, rfl⟩ := (lagrangeBasis_eq_ok i xs l).1 hl
  have hmonic := monicWithValue_basisProducts i xs
  have hpos := List.length_pos_iff.2 hmonic.ne_nil
  rw [length_polyScale, coeff_polyScale _ _ _ (by omega), hmonic.top, one_gfMul]
  exact ne_zero_of_gfMul_eq_one hx

end

/-- Settles O18: the basis is a nonzero multiple of the numerator, whose roots are the other points. -/
theorem lagrangeBasisSelectsItsPoint : Obligations.LagrangeBasisSelectsItsPoint := by
  intro i xs hi
  refine ⟨?_, fun c hc => ((lagrangeBasis_eq_error_iff i xs c).1 hc).1, fun l hl => ?_⟩
  · simp only [lagrangeBasis_eq_error_iff, exists_eq_left]
  · have hlen := length_lagrangeBasis i xs l hi hl
    exact ⟨hlen, polyEval_lagrangeBasis_self hl, fun j => polyEval_lagrangeBasis_of_ne hl,
      hlen ▸ top_lagrangeBasis_ne_zero hl⟩

end Sys2Proof.Machine
end

section
/-! PROOFS. Interpolation (42_lagrange.md R161, R162). Each pass of the loop puts one more sample value at its point and leaves
the values at the other points alone. Uniqueness is a count: evaluation at `n` distinct points takes the finitely many
sequences of length `n` onto the sample values of length `n`, so it is one-to-one. -/

namespace Sys2Proof.Machine

/-! ## Repeated points -/

theorem hasDuplicate_iff (xs : Poly) : hasDuplicate xs = true ↔ ¬ xs.Nodup := by
  induction xs with
  | nil => simp [hasDuplicate]
  | cons x xs ih =>
    rw [hasDuplicate, Bool.or_eq_true, ih, List.contains_iff_mem, List.nodup_cons]
    tauto

theorem coeff_ne_of_nodup {xs : Poly} (hxs : xs.Nodup) {i j : Nat} (hi : i < xs.length) (hj : j < xs.length) (h : j ≠ i) :
    coeff xs j ≠ coeff xs i := by
  rw [coeff_of_lt xs j hj, coeff_of_lt xs i hi]
  exact fun e => h (hxs.getElem_inj_iff.1 e)

/-! ## The two faults -/

theorem lagrangeInterp_of_length_ne {xs ys : Poly} (h : xs.length ≠ ys.length) :
    lagrangeInterp xs ys = .error .lengthMismatch := if_pos h

theorem lagrangeInterp_of_not_nodup {xs ys : Poly} (h : xs.length = ys.length) (hdup : ¬ xs.Nodup) :
    lagrangeInterp xs ys = .error .duplicateX := by
  rw [lagrangeInterp, if_neg (not_not_intro h), if_pos ((hasDuplicate_iff xs).2 hdup)]

theorem lagrangeInterp_of_nodup {xs ys : Poly} (h : xs.length = ys.length) (hxs : xs.Nodup) :
    lagrangeInterp xs ys = (List.range xs.length).foldl (interpStep xs ys) (.ok []) := by
  rw [lagrangeInterp, if_neg (not_not_intro h), if_neg fun hd => (hasDuplicate_iff xs).1 hd hxs]

/-- An interpolation that succeeds had equally long operands and distinct points. -/
theorem length_eq_and_nodup_of_lagrangeInterp {xs ys r : Poly} (h : lagrangeInterp xs ys = .ok r) :
    xs.length = ys.length ∧ xs.Nodup := by
  by_cases hlen : xs.length = ys.length
  · refine ⟨hlen, by_contra fun hdup => ?_⟩
    rw [lagrangeInterp_of_not_nodup hlen hdup] at h
    exact absurd h (by simp)
  · rw [lagrangeInterp_of_length_ne hlen] at h
    exact absurd h (by simp)

/-! ## The loop -/

/-- What the running result is after the passes `0` to `m - 1`: it takes the first `m` sample values at their points and is zero
at the other points. -/
structure PassesThroughFirst (xs ys : Poly) (m : Nat) (r : Poly) : Prop where
  length_eq : r.length = if m = 0 then 0 else xs.length
  value : ∀ k, k < xs.length → polyEval r (coeff xs k) = if k < m then coeff ys k else 0x00#8

theorem passesThroughFirst_nil (xs ys : Poly) : PassesThroughFirst xs ys 0 [] := ⟨rfl, fun _ _ => rfl⟩

theorem PassesThroughFirst.polyAdd {xs ys r l : Poly} {m : Nat} (h : PassesThroughFirst xs ys m r) (hm : m < xs.length)
    (hl : lagrangeBasis m xs = .ok l) :
    PassesThroughFirst xs ys (m + 1) (polyAdd r (polyScale l (coeff ys m))) := by
  refine ⟨?_, fun k hk => ?_⟩
  · rw [length_polyAdd, length_polyScale, length_lagrangeBasis m xs l hm hl, h.length_eq, if_neg (Nat.succ_ne_zero m)]
    split <;> omega
  · rw [polyEval_polyAdd, polyEval_polyScale, h.value k hk]
    rcases Nat.lt_trichotomy k m with hlt | rfl | hgt
    · rw [polyEval_lagrangeBasis_of_ne hl hk (by omega), gfMul_zero, gfAdd_zero, if_pos hlt, if_pos (by omega)]
    · rw [polyEval_lagrangeBasis_self hl, gfMul_one, if_neg (by omega), zero_gfAdd, if_pos (by omega)]
    · rw [polyEval_lagrangeBasis_of_ne hl hk (by omega), gfMul_zero, gfAdd_zero, if_neg (by omega), if_neg (by omega)]

theorem exists_foldl_interpStep {xs : Poly} (ys : Poly) (hxs : xs.Nodup) (m : Nat) (hm : m ≤ xs.length) :
    ∃ r, (List.range m).foldl (interpStep xs ys) (.ok []) = .ok r ∧ PassesThroughFirst xs ys m r := by
  induction m with
  | zero => exact ⟨[], rfl, passesThroughFirst_nil xs ys⟩
  | succ m ih =>
    obtain ⟨r, hr, hpass⟩ := ih (by omega)
    obtain ⟨l, hl⟩ := exists_lagrangeBasis fun j hj hne => coeff_ne_of_nodup hxs (i := m) (by omega) hj hne
    refine ⟨_, ?_, hpass.polyAdd (by omega) hl⟩
    simp only [List.range_succ, List.foldl_append, hr, List.foldl_cons, List.foldl_nil, interpStep, hl]

/-- Interpolation of equally long sequences with distinct points succeeds, and the result passes through every point. -/
theorem exists_lagrangeInterp {xs ys : Poly} (h : xs.length = ys.length) (hxs : xs.Nodup) :
    ∃ r, lagrangeInterp xs ys = .ok r ∧ r.length = xs.length ∧
      ∀ k, k < xs.length → polyEval r (coeff xs k) = coeff ys k := by
  obtain ⟨r, hr, hpass⟩ := exists_foldl_interpStep ys hxs xs.length (Nat.le_refl _)
  refine ⟨r, (lagrangeInterp_of_nodup h hxs).trans hr, ?_, fun k hk => by rw [hpass.value k hk, if_pos hk]⟩
  rw [hpass.length_eq]
  split <;> omega

/-- Settles O19: the two faults in order, and the loop's result otherwise. -/
theorem interpolantPassesThroughThePoints : Obligations.InterpolantPassesThroughThePoints := fun _ _ =>
  ⟨lagrangeInterp_of_length_ne, lagrangeInterp_of_not_nodup, exists_lagrangeInterp⟩

/-! ## Uniqueness -/

/-- The values of a sequence at the sample points. -/
def samplesAt (xs : Poly) (p : List.Vector Element xs.length) : List.Vector Element xs.length :=
  ⟨xs.map (polyEval p.1), List.length_map _⟩

theorem map_polyEval_eq_iff {xs ys p : Poly} (h : xs.length = ys.length) :
    xs.map (polyEval p) = ys ↔ ∀ k, k < xs.length → polyEval p (coeff xs k) = coeff ys k := by
  constructor
  · rintro rfl k hk
    simp [coeff, hk]
  · intro hp
    refine List.ext_getElem (by simpa using h) fun k hk hy => ?_
    have hx : k < xs.length := by simpa using hk
    rw [List.getElem_map, ← coeff_of_lt xs k hx, hp k hx, coeff_of_lt ys k hy]

theorem samplesAt_surjective {xs : Poly} (hxs : xs.Nodup) : Function.Surjective (samplesAt xs) := by
  rintro ⟨ys, hys⟩
  obtain ⟨r, -, hlen, hr⟩ := exists_lagrangeInterp hys.symm hxs
  exact ⟨⟨r, hlen⟩, Subtype.ext ((map_polyEval_eq_iff hys.symm).2 hr)⟩

/-- Two sequences as long as a list of distinct points that agree at those points are equal. -/
theorem eq_of_polyEval_eq {xs p q : Poly} (hxs : xs.Nodup) (hp : p.length = xs.length) (hq : q.length = xs.length)
    (h : xs.map (polyEval p) = xs.map (polyEval q)) : p = q := by
  have hinj := Finite.injective_iff_surjective.2 (samplesAt_surjective hxs)
  have heq : (⟨p, hp⟩ : List.Vector Element xs.length) = ⟨q, hq⟩ := hinj (Subtype.ext h)
  exact congrArg Subtype.val heq

/-- A sequence of the sample length that passes through every point is the interpolant. -/
theorem eq_lagrangeInterp {xs ys r q : Poly} (hr : lagrangeInterp xs ys = .ok r) (hq : q.length = xs.length)
    (h : xs.map (polyEval q) = ys) : q = r := by
  obtain ⟨hlen, hxs⟩ := length_eq_and_nodup_of_lagrangeInterp hr
  obtain ⟨r', hr', hlen', hval⟩ := exists_lagrangeInterp hlen hxs
  obtain rfl : r' = r := Except.ok.inj (hr'.symm.trans hr)
  exact eq_of_polyEval_eq hxs hq hlen' (h.trans ((map_polyEval_eq_iff hlen).2 hval).symm)

/-- Settles O20: evaluation at the points is one-to-one on sequences of their number. -/
theorem interpolantIsUnique : Obligations.InterpolantIsUnique := fun _ _ _ _ hr hq h =>
  eq_lagrangeInterp hr hq ((map_polyEval_eq_iff (length_eq_and_nodup_of_lagrangeInterp hr).1).2 h)

end Sys2Proof.Machine
end

section
/-! PROOFS. The instructions of the Lagrange units (42_lagrange.md R163, R164): the words of their rows, what they write, its
frame, and their faults in order. -/

namespace Sys2Proof.Machine

/-! ## LBASIS -/

section
variable (d a : VReg) (b : EReg) {s : State}

theorem exec_lbasis_of_ok {l : Poly} (hb : (s.readE b).toNat < (s.readV a).length)
    (hl : lagrangeBasis (s.readE b).toNat (s.readV a) = .ok l) : exec (.lbasis d a b) s = (s.writeV d l).retire := by
  rw [exec, execLbasis, indexOf, if_neg (Nat.not_le_of_lt hb), hl]

theorem exec_lbasis_of_error {c : Cause} (hb : (s.readE b).toNat < (s.readV a).length)
    (hc : lagrangeBasis (s.readE b).toNat (s.readV a) = .error c) :
    exec (.lbasis d a b) s = s.raise c (.lbasis d a b) := by
  rw [exec, execLbasis, indexOf, if_neg (Nat.not_le_of_lt hb), hc]

theorem exec_lbasis_of_le (hb : (s.readV a).length ≤ (s.readE b).toNat) :
    exec (.lbasis d a b) s = s.raise .indexRange (.lbasis d a b) := if_pos hb

end

theorem eq_polyScale_of_lagrangeBasis {i : Nat} {xs l : Poly} (hl : lagrangeBasis i xs = .ok l) (x : Element)
    (hx : gfMul (basisProducts i xs).2 x = 0x01#8) : l = polyScale (basisProducts i xs).1 x :=
  Except.ok.inj (hl.symm.trans ((lagrangeBasis_eq_ok i xs _).2 ⟨x, hx, rfl⟩))

/-- The basis of a single point is `[0x01]`. -/
theorem lagrangeBasis_of_length_one {i : Nat} {xs l : Poly} (hi : i < xs.length) (hl : lagrangeBasis i xs = .ok l)
    (h : xs.length = 1) : l = [0x01#8] := by
  obtain ⟨c, rfl⟩ := List.length_eq_one_iff.1 ((length_lagrangeBasis i xs l hi hl).trans h)
  rw [← polyEval_singleton c (coeff xs i), polyEval_lagrangeBasis_self hl]

/-- Settles O16: LBASIS writes the basis and retires where there is one, and takes the stop action where there is none. -/
theorem lbasisWritesTheBasisOrFaults : Obligations.LbasisWritesTheBasisOrFaults := by
  refine ⟨encodedAs_row .lbasis, rfl, fun d a b s hb hdistinct => ?_,
    fun d a b s hb => raises_of_exec_eq_raise (exec_lbasis_of_le d a b hb), fun d a b s j hb hj hne heq => ?_⟩
  · obtain ⟨l, hl⟩ := exists_lagrangeBasis hdistinct
    obtain ⟨t, ht, hw⟩ := retire_writeV d l s
    refine ⟨l, t, hl, (exec_lbasis_of_ok d a b hb hl).trans ht, hw, lagrangeBasis_of_length_one hb hl, ?_, ?_, ?_⟩
    all_goals
      intro hxs hi
      rw [hxs, hi] at hl
    · exact (eq_polyScale_of_lagrangeBasis hl 0x52#8 (by decide)).trans (by decide)
    · exact (eq_polyScale_of_lagrangeBasis hl 0x01#8 (by decide)).trans (by decide)
    · exact (eq_polyScale_of_lagrangeBasis hl 0x7B#8 (by decide)).trans (by decide)
  · exact raises_of_exec_eq_raise
      (exec_lbasis_of_error d a b hb ((lagrangeBasis_eq_error_iff _ _ _).2 ⟨rfl, j, hj, hne, heq⟩))

/-! ## LINTERP -/

section
variable (d a b : VReg) {s : State}

theorem exec_linterp_of_ok {r : Poly} (hr : lagrangeInterp (s.readV a) (s.readV b) = .ok r) :
    exec (.linterp d a b) s = (s.writeV d r).retire := by
  rw [exec, execLinterp, hr]

theorem exec_linterp_of_error {c : Cause} (hc : lagrangeInterp (s.readV a) (s.readV b) = .error c) :
    exec (.linterp d a b) s = s.raise c (.linterp d a b) := by
  rw [exec, execLinterp, hc]

end

/-- The sequence that is its own argument as a polynomial. -/
theorem polyEval_identity (n : Nat) : polyEval (0x00#8 :: 0x01#8 :: List.replicate n 0x00#8) = id := by
  funext x
  rw [polyEval_cons, polyEval_cons, polyEval_replicate_zero, zero_gfMul, zero_gfAdd, one_gfMul, gfAdd_zero, id]

/-- Settles O17: LINTERP writes the interpolant and retires where there is one, and takes the stop action where there is none;
the corner cases and the example follow from uniqueness. -/
theorem linterpWritesTheInterpolantOrFaults : Obligations.LinterpWritesTheInterpolantOrFaults := by
  refine ⟨encodedAs_row .linterp, rfl, fun d a b s hlen hxs => ?_, by decide,
    fun d a b s h => raises_of_exec_eq_raise (exec_linterp_of_error d a b (lagrangeInterp_of_length_ne h)),
    fun d a b s h hdup => raises_of_exec_eq_raise (exec_linterp_of_error d a b (lagrangeInterp_of_not_nodup h hdup))⟩
  obtain ⟨r, hr, hlenr, -⟩ := exists_lagrangeInterp hlen hxs
  obtain ⟨t, ht, hw⟩ := retire_writeV d r s
  refine ⟨r, t, hr, (exec_linterp_of_ok d a b hr).trans ht, hw, fun ha => ?_, fun y hb => ?_, fun hab n hn => ?_,
    fun ha hb => ?_⟩
  · exact List.length_eq_zero_iff.1 (by rw [hlenr, ha, List.length_nil])
  · rw [hb] at hlen hr
    obtain ⟨x, hx⟩ := List.length_eq_one_iff.1 hlen
    rw [hx] at hr
    refine (eq_lagrangeInterp hr ?_ ?_).symm
    · rfl
    · rw [List.map_singleton, polyEval_singleton]
  · rw [← hab] at hr
    refine (eq_lagrangeInterp hr ?_ ?_).symm
    · simp only [List.length_cons, List.length_replicate, hn]
    · rw [polyEval_identity, List.map_id]
  · rw [ha, hb] at hr
    refine (eq_lagrangeInterp hr ?_ ?_).symm
    · rfl
    · decide

end Sys2Proof.Machine
end

section
/-! PROOFS. Data movement between the element registers and DMEM (43_data_movement.md R181 to R185): the words of the rows, what
they write, its frame, and DMEM_RANGE. -/

namespace Sys2Proof.Machine

/-! ## What a retired write answers -/

/-- The element written, named by the state after. -/
theorem OnlyElement.with_read {d : EReg} {x : Element} {s t : State} (h : OnlyElement d x s t) :
    OnlyElement d (t.readE d) s t := by
  rw [h.read]
  exact h

/-- An instruction that stores to DMEM and retires answers a next state, with the frame of `OnlyDmem`. -/
theorem retire_dmemWrite (addr : Nat) (xs : Poly) (s : State) :
    ∃ t, (s.dmemWrite addr xs).retire = .next t ∧ OnlyDmem addr xs s t :=
  ⟨_, rfl, dmemByte_dmemWrite_inside s addr xs, dmemByte_dmemWrite_outside s addr xs, fun _ => rfl, fun _ => rfl,
    fun _ => rfl, ⟨rfl, rfl, rfl, rfl, rfl⟩, ⟨rfl, rfl, rfl, rfl, rfl, rfl, rfl, rfl⟩, rfl⟩

/-- Every byte lies outside an empty store. -/
theorem OnlyDmem.sameDmem_of_nil {addr : Nat} {s t : State} (h : OnlyDmem addr [] s t) : SameDmem s t := by
  obtain ⟨-, houtside, -⟩ := h
  exact fun a => houtside a (Nat.lt_or_ge a addr)

/-! ## ELI, EMOV, EINC -/

/-- Settles O21: each writes one element and retires. -/
theorem eliEmovEincWriteTheirElement : Obligations.EliEmovEincWriteTheirElement := by
  refine ⟨encodedAs_row .eli, encodedAs_row .emov, encodedAs_row .einc, rfl, rfl, rfl, fun _ => rfl, gfAdd_self _,
    retire_writeE, fun d a s => ?_, fun d a s => ?_⟩
  · obtain ⟨t, ht, hw⟩ := retire_writeE d (s.readE a) s
    refine ⟨t, ht, hw, ?_⟩
    rintro rfl
    exact hw.onlyPc
  · obtain ⟨t, ht, hw⟩ := retire_writeE d (s.readE a + 1#8) s
    refine ⟨t, ht, hw.with_read, ?_, fun ha => ?_, fun ha => ?_, fun ha => ?_⟩
    · rw [hw.read, BitVec.toNat_add]
      rfl
    all_goals
      rw [hw.read, ha]
      rfl

/-! ## ELD and EST -/

/-- An access that ends beyond DMEM is out of range (20_memory.md R76). -/
theorem not_dmemInRange {p : Params} {addr n : Nat} (h : p.dmemBytes < addr + n) : ¬ dmemInRange p addr n = true := by
  rw [dmemInRange, decide_eq_true_iff]
  exact Nat.not_le_of_lt h

section
variable (r : EReg) {addr : Nat} {s : State}

theorem exec_eld_of_lt (h : addr < s.params.dmemBytes) : exec (.eld r addr) s = (s.writeE r (s.dmemByte addr)).retire :=
  if_pos (decide_eq_true h)

theorem exec_est_of_lt (h : addr < s.params.dmemBytes) : exec (.est r addr) s = (s.dmemWrite addr [s.readE r]).retire :=
  if_pos (decide_eq_true h)

theorem exec_eld_of_le (h : s.params.dmemBytes ≤ addr) : exec (.eld r addr) s = s.raise .dmemRange (.eld r addr) :=
  if_neg (not_dmemInRange (Nat.lt_succ_of_le h))

theorem exec_est_of_le (h : s.params.dmemBytes ≤ addr) : exec (.est r addr) s = s.raise .dmemRange (.est r addr) :=
  if_neg (not_dmemInRange (Nat.lt_succ_of_le h))

end

/-- Settles O22: below DMEM_BYTES each makes its one write and retires; elsewhere each takes the stop action. -/
theorem eldAndEstMoveOneByte : Obligations.EldAndEstMoveOneByte := by
  refine ⟨encodedAs_row .eld, encodedAs_row .est, rfl, rfl, fun r addr s hin => ⟨?_, ?_⟩,
    fun r addr s hout => ⟨raises_of_exec_eq_raise (exec_eld_of_le r hout), raises_of_exec_eq_raise (exec_est_of_le r hout)⟩⟩
  · rw [exec_eld_of_lt r hin]
    exact retire_writeE r _ s
  · rw [exec_est_of_lt r hin]
    exact retire_dmemWrite addr _ s

end Sys2Proof.Machine
end

section
/-! PROOFS. Data movement of vector registers (43_data_movement.md R186 to R192): the words of the rows, what they write, its
frame, and the faults CAPACITY, DMEM_RANGE and INDEX_RANGE. -/

namespace Sys2Proof.Machine

/-- The vector written, named by the state after. -/
theorem OnlyVector.with_read {d : VReg} {xs : Poly} {s t : State} (h : OnlyVector d xs s t) :
    OnlyVector d (t.readV d) s t := by
  rw [h.read]
  exact h

/-! ## VLD and VST -/

theorem getElem?_dmemRead (s : State) (addr : Nat) {n k : Nat} (h : k < n) :
    (s.dmemRead addr n)[k]? = some (s.dmemByte (addr + k)) := by
  rw [List.getElem?_eq_getElem (by rwa [length_dmemRead]), getElem_dmemRead]

theorem exec_vld_of_out_of_range (r : VReg) {len addr : Nat} {s : State} (hlen : len ≤ s.params.vlmax)
    (hout : s.params.dmemBytes < addr + len) : exec (.vld r len addr) s = s.raise .dmemRange (.vld r len addr) := by
  have hfit : fitsVector s.params len = true := decide_eq_true hlen
  exact (if_neg (not_not.2 hfit)).trans (if_pos (not_dmemInRange hout))

theorem exec_vst_of_out_of_range {r : VReg} {addr : Nat} {s : State}
    (hout : s.params.dmemBytes < addr + (s.readV r).length) :
    exec (.vst r addr) s = s.raise .dmemRange (.vst r addr) :=
  if_neg (not_dmemInRange hout)

/-- Settles O23: VLD writes the bytes read and retires where length and range fit; the checks come in the order CAPACITY,
DMEM_RANGE. -/
theorem vldLoadsTheSequenceOrFaults : Obligations.VldLoadsTheSequenceOrFaults := by
  refine ⟨encodedAs_row .vld, rfl, fun r len addr s hlen hin => ?_,
    fun r len addr s hlong => raises_of_exec_eq_raise (exec_vld_of_too_long r addr hlong),
    fun r len addr s hlen hout => raises_of_exec_eq_raise (exec_vld_of_out_of_range r hlen hout)⟩
  obtain ⟨t, ht, hw⟩ := retire_writeV r (s.dmemRead addr len) s
  refine ⟨t, (exec_vld_of_fits hlen hin).trans ht, hw.with_read, ?_, fun k hk => ?_, ?_⟩
  · rw [hw.read, length_dmemRead]
  · rw [hw.read, getElem?_dmemRead s addr hk]
  · rintro rfl
    rw [hw.read]
    rfl

/-- Settles O24: VST stores the vector and retires where the range fits, and takes the stop action where it does not. -/
theorem vstStoresTheSequenceOrFaults : Obligations.VstStoresTheSequenceOrFaults := by
  refine ⟨encodedAs_row .vst, rfl, fun r addr s hin => ?_,
    fun r addr s hout => raises_of_exec_eq_raise (exec_vst_of_out_of_range hout)⟩
  obtain ⟨t, ht, hw⟩ := retire_dmemWrite addr (s.readV r) s
  refine ⟨t, (exec_vst_of_inRange hin).trans ht, hw, fun hnil => ?_⟩
  rw [hnil] at hw
  exact hw.sameDmem_of_nil

/-! ## VMOV and VCLR -/

theorem exec_vclr_of_fits (d : VReg) {len : Nat} {s : State} (h : len ≤ s.params.vlmax) :
    exec (.vclr d len) s = (s.writeV d (List.replicate len 0x00#8)).retire :=
  if_pos (decide_eq_true h)

/-- Settles O25: VMOV writes one vector and retires; so does VCLR where the length fits, and it takes the stop action where it
does not. -/
theorem vmovAndVclrWriteTheirVector : Obligations.VmovAndVclrWriteTheirVector := by
  refine ⟨encodedAs_row .vmov, encodedAs_row .vclr, rfl, rfl, fun _ _ => rfl, fun _ => rfl,
    fun d a s => retire_writeV d (s.readV a) s, fun d len s hlen => ?_,
    fun d len s hlong => raises_of_exec_eq_raise (exec_vclr_of_too_long d hlong)⟩
  obtain ⟨t, ht, hw⟩ := retire_writeV d (List.replicate len 0x00#8) s
  refine ⟨t, (exec_vclr_of_fits d hlen).trans ht, hw, ?_⟩
  rintro rfl
  exact hw.read

/-! ## VLEN and VGET -/

/-- A length of at most 255 is its own element value (43_data_movement.md R189). -/
theorem toNat_lengthElement {xs : Poly} (h : xs.length ≤ 255) : (lengthElement xs).toNat = xs.length := by
  rw [lengthElement, BitVec.toNat_ofNat]
  exact Nat.mod_eq_of_lt (Nat.lt_succ_of_le h)

section
variable (d : EReg) (a : VReg) (b : EReg) {s : State}

theorem exec_vget_of_lt (h : (s.readE b).toNat < (s.readV a).length) :
    exec (.vget d a b) s = (s.writeE d (s.readV a)[(s.readE b).toNat]).retire := by
  rw [exec, execVget, elementAt?, indexOf, List.getElem?_eq_getElem h]

theorem exec_vget_of_le (h : (s.readV a).length ≤ (s.readE b).toNat) :
    exec (.vget d a b) s = s.raise .indexRange (.vget d a b) := by
  rw [exec, execVget, elementAt?, indexOf, List.getElem?_eq_none h]

end

/-- Settles O26: VLEN writes one element and retires; so does VGET on an index below the length, and it takes the stop action on
any other. -/
theorem vlenAndVgetReadTheVector : Obligations.VlenAndVgetReadTheVector := by
  refine ⟨encodedAs_row .vlen, encodedAs_row .vget, rfl, rfl, fun d a s hlen => ?_, fun d a b s hb => ?_,
    fun d a b s hb => raises_of_exec_eq_raise (exec_vget_of_le d a b hb)⟩
  · obtain ⟨t, ht, hw⟩ := retire_writeE d (lengthElement (s.readV a)) s
    exact ⟨t, ht, hw.with_read, by rw [hw.read, toNat_lengthElement hlen]⟩
  · obtain ⟨t, ht, hw⟩ := retire_writeE d (s.readV a)[(s.readE b).toNat] s
    exact ⟨_, t, List.getElem?_eq_getElem hb, (exec_vget_of_lt d a b hb).trans ht, hw⟩

/-! ## VSET -/

section
variable (d : VReg) (a b : EReg) {s : State}

theorem exec_vset_of_lt (h : (s.readE a).toNat < (s.readV d).length) :
    exec (.vset d a b) s = (s.writeV d ((s.readV d).set (s.readE a).toNat (s.readE b))).retire :=
  if_neg (Nat.not_le_of_lt h)

theorem exec_vset_of_le (h : (s.readV d).length ≤ (s.readE a).toNat) :
    exec (.vset d a b) s = s.raise .indexRange (.vset d a b) := if_pos h

end

/-- Settles O27: VSET writes the vector with one element set and retires on an index below the length, and takes the stop action
on any other. -/
theorem vsetReplacesOneElementOrFaults : Obligations.VsetReplacesOneElementOrFaults := by
  refine ⟨encodedAs_row .vset, rfl, fun d a b s ha => ?_,
    fun d a b s ha => raises_of_exec_eq_raise (exec_vset_of_le d a b ha)⟩
  obtain ⟨t, ht, hw⟩ := retire_writeV d ((s.readV d).set (s.readE a).toNat (s.readE b)) s
  refine ⟨t, (exec_vset_of_lt d a b ha).trans ht, hw.with_read, ?_, ?_, fun k hk => ?_⟩
  · rw [hw.read, List.length_set]
  · rw [hw.read, List.getElem?_set_self ha]
  · rw [hw.read, List.getElem?_set_ne hk.symm]

end Sys2Proof.Machine
end

section
/-! PROOFS. Control transfer (44_control.md R219 to R226): the words of the rows, where each instruction sends `pc`, and the
fetch that checks it. -/

namespace Sys2Proof.Machine

/-! ## What a write of `pc` answers -/

theorem onlyPc_setPc (p : PcValue) (s : State) : OnlyPc p s (s.setPc p) :=
  ⟨fun _ => rfl, fun _ => rfl, fun _ => rfl, fun _ => rfl, ⟨rfl, rfl, rfl, rfl, rfl⟩,
    ⟨rfl, rfl, rfl, rfl, rfl, rfl, rfl, rfl⟩, rfl⟩

theorem setPc_self (s : State) : s.setPc s.pc = s := rfl

/-! ## Branch targets (44_control.md R219) -/

/-- A target is counted from the instruction's own index, modulo 2^16. -/
theorem toNat_branchTarget (p : PcValue) (off : Int) :
    ((branchTarget p off).toNat : Int) = ((p.toNat : Int) + off) % 65536 := by
  rw [branchTarget, BitVec.toNat_add, BitVec.toNat_ofInt]
  omega

theorem branchTarget_zero (p : PcValue) : branchTarget p 0 = p := BitVec.add_zero p

/-- Offset 1 is the default successor. -/
theorem branchTarget_one (p : PcValue) : branchTarget p 1 = p + 1#16 := rfl

/-! ## The fetch range (60_exceptions.md R242) -/

/-- IMEM has at least one and at most 2048 words (00_scope.md R8). -/
theorem imemWords_of_legal {p : Params} (h : p.legal = true) : 1 ≤ p.imemWords ∧ p.imemWords ≤ 2048 := by
  simp only [Params.legal, Bool.and_eq_true, decide_eq_true_iff] at h
  obtain ⟨⟨⟨-, himem⟩, -⟩, -⟩ := h
  exact himem

/-- With no abort pending and `pc` outside IMEM, an engine cycle stops with FETCH_RANGE. -/
theorem engineCycle_stops_outside_imem {s : State} (ha : s.abortPending = false)
    (hpc : s.params.imemWords ≤ s.pc.toNat) :
    ∃ t, engineCycle s = .next t ∧ Stopped .fetchRange s.pc 0x00000000#32 s t := by
  refine ⟨_, ?_, stopped_stop s .fetchRange s.pc 0#32⟩
  rw [engineCycle, ha, if_neg (by decide), if_pos hpc]

/-! ## HALT and NOP -/

/-- In DONE the interrupt level is IE_DONE (60_exceptions.md R260). -/
theorem irq_of_done {s : State} (h : s.engState = .done) : s.irq = s.ieDone := by
  simp [State.irq, h]

/-- From RUNNING, an instruction that reaches DONE is HALT. -/
theorem eq_halt_of_done {i : Instr} {s t : State} (hrun : s.engState = .running) (h : exec i s = .next t)
    (hdone : t.engState = .done) : i = .halt := by
  by_contra hi
  rcases (exec_ends h).engState_of_ne_halt hi with hkept | hfault
  · exact absurd (hdone.symm.trans (hkept.trans hrun)) (by decide)
  · exact absurd (hdone.symm.trans hfault) (by decide)

/-- Settles O29: HALT sets DONE and retires, NOP only retires, and no other end of an instruction is DONE. -/
theorem haltEndsTheRunAndNopDoesNothing : Obligations.HaltEndsTheRunAndNopDoesNothing := by
  refine ⟨encodedAs_row .halt, encodedAs_row .nop, rfl, rfl, ⟨_, rfl⟩, fun s => ?_, fun i s t => eq_halt_of_done,
    fun s => ⟨_, rfl, onlyPc_setPc _ s⟩⟩
  exact ⟨_, rfl, rfl, rfl, rfl, irq_of_done rfl, rfl, rfl, rfl, id, fun _ => rfl, fun _ => rfl, fun _ => rfl,
    fun _ => rfl, rfl, rfl, rfl, rfl, rfl, rfl, rfl, rfl⟩

/-! ## JMP -/

theorem exec_jmp (off : Int) (s : State) : exec (.jmp off) s = .next (s.setPc (branchTarget s.pc off)) := rfl

/-- Settles O30: JMP writes `pc` alone, and the next fetch is the one that checks its target. -/
theorem jmpIsRelativeToItself : Obligations.JmpIsRelativeToItself := by
  refine ⟨encodedAs_row .jmp, rfl, rfl, fun _ => rfl,
    fun off s => ⟨_, exec_jmp off s, onlyPc_setPc _ s, toNat_branchTarget s.pc off⟩, fun s ha hpc hw => ?_,
    fun off s t ha ht hpc => ?_, fun s hpc hlegal => ?_⟩
  · have hd : decode 0x03000000#32 = .ok (.jmp 0) := rfl
    rw [engineCycle_of_fetch ha hpc, hw, executeWord, hd]
    exact (exec_jmp 0 s).trans (by rw [branchTarget_zero, setPc_self])
  · obtain rfl := (jumpTo_eq_next s _ t).1 ht
    exact engineCycle_stops_outside_imem ha hpc
  · have htarget : branchTarget s.pc (-1) = 0xFFFF#16 := by rw [hpc]; rfl
    obtain ⟨-, hle⟩ := imemWords_of_legal hlegal
    refine ⟨_, exec_jmp (-1) s, htarget, ?_⟩
    rw [setPc_pc, htarget]
    exact hle.trans (by decide)

/-! ## BEQ and BNE -/

section
variable (a b : EReg) (off : Int) {s : State}

theorem exec_beq_of_eq (h : s.readE a = s.readE b) : exec (.beq a b off) s = s.jumpTo (branchTarget s.pc off) :=
  if_pos (beq_iff_eq.2 h)

theorem exec_beq_of_ne (h : s.readE a ≠ s.readE b) : exec (.beq a b off) s = s.retire :=
  if_neg (mt beq_iff_eq.1 h)

theorem exec_bne_of_eq (h : s.readE a = s.readE b) : exec (.bne a b off) s = s.retire :=
  if_pos (beq_iff_eq.2 h)

theorem exec_bne_of_ne (h : s.readE a ≠ s.readE b) : exec (.bne a b off) s = s.jumpTo (branchTarget s.pc off) :=
  if_neg (mt beq_iff_eq.1 h)

end

/-- Settles O31: a branch writes `pc` alone, with its target or with the next index as the two elements decide. -/
theorem branchesCompareTwoElements : Obligations.BranchesCompareTwoElements := by
  refine ⟨encodedAs_row .beq, encodedAs_row .bne, rfl, rfl, fun a b off s => ?_, fun a b off s => ?_⟩
  · by_cases h : s.readE a = s.readE b
    · refine ⟨_, exec_beq_of_eq a b off h, onlyPc_setPc _ s, fun _ => toNat_branchTarget s.pc off,
        fun hne => absurd h hne, ?_⟩
      rintro rfl
      exact branchTarget_one s.pc
    · exact ⟨_, exec_beq_of_ne a b off h, onlyPc_setPc _ s, fun heq => absurd heq h, fun _ => rfl, fun _ => rfl⟩
  · by_cases h : s.readE a = s.readE b
    · exact ⟨_, exec_bne_of_eq a b off h, onlyPc_setPc _ s, fun hne => absurd h hne, fun _ => rfl, fun _ => rfl⟩
    · exact ⟨_, exec_bne_of_ne a b off h, onlyPc_setPc _ s, fun _ => toNat_branchTarget s.pc off,
        fun heq => absurd heq h, fun hab => absurd (congrArg s.readE hab) h⟩

/-! ## The default successor (44_control.md R226) -/

/-- Where the result is no fault, `pc` is at the next index. -/
def Advances (s : State) (r : Result) : Prop := ∀ t, r = .next t → t.engState ≠ .fault → t.pc = s.pc + 1#16

section
variable {s : State}

theorem advances_retire {u : State} (hpc : u.pc = s.pc) : Advances s u.retire := by
  intro t ht _
  rw [(retire_eq_next u t).1 ht, setPc_pc, hpc]

theorem advances_raise (c : Cause) (i : Instr) : Advances s (s.raise c i) := by
  intro t ht hf
  rw [(raise_eq_next s c i t).1 ht] at hf
  exact absurd rfl hf

theorem Advances.ite {c : Prop} [Decidable c] {r r' : Result} (h : Advances s r) (h' : Advances s r') :
    Advances s (if c then r else r') := by
  split
  · exact h
  · exact h'

theorem execGinv_advances (d a : EReg) : Advances s (execGinv d a s) := by
  unfold execGinv
  split
  · exact advances_retire rfl
  · exact advances_raise _ _

theorem execLbasis_advances (d a : VReg) (b : EReg) : Advances s (execLbasis d a b s) := by
  unfold execLbasis
  refine (advances_raise _ _).ite ?_
  split
  · exact advances_retire rfl
  · exact advances_raise _ _

theorem execLinterp_advances (d a b : VReg) : Advances s (execLinterp d a b s) := by
  unfold execLinterp
  split
  · exact advances_retire rfl
  · exact advances_raise _ _

theorem execVget_advances (d : EReg) (a : VReg) (b : EReg) : Advances s (execVget d a b s) := by
  unfold execVget
  split
  · exact advances_retire rfl
  · exact advances_raise _ _

/-- Every instruction that is no JMP, no BEQ of equal elements and no BNE of differing ones retires or raises a fault. -/
theorem exec_advances {i : Instr} (hjmp : ∀ off, i ≠ .jmp off)
    (hbeq : ∀ a b off, i = .beq a b off → s.readE a ≠ s.readE b)
    (hbne : ∀ a b off, i = .bne a b off → s.readE a = s.readE b) : Advances s (exec i s) := by
  cases i with
  | gadd | gneg | gmul | peval | padd | pscale | eli | emov | einc | vmov | vlen | halt | nop =>
    exact advances_retire rfl
  | eld | est | vst | vclr => exact (advances_retire rfl).ite (advances_raise _ _)
  | pmul | vset => exact (advances_raise _ _).ite (advances_retire rfl)
  | vld => exact (advances_raise _ _).ite ((advances_raise _ _).ite (advances_retire rfl))
  | ginv d a => exact execGinv_advances d a
  | lbasis d a b => exact execLbasis_advances d a b
  | linterp d a b => exact execLinterp_advances d a b
  | vget d a b => exact execVget_advances d a b
  | jmp off => exact absurd rfl (hjmp off)
  | beq a b off =>
    rw [exec_beq_of_ne a b off (hbeq a b off rfl)]
    exact advances_retire rfl
  | bne a b off =>
    rw [exec_bne_of_eq a b off (hbne a b off rfl)]
    exact advances_retire rfl

end

/-- The successor of the last index of IMEM does not wrap (00_scope.md R8). -/
theorem toNat_succ_of_last_index {s : State} (hlegal : s.params.legal = true)
    (hpc : s.pc.toNat = s.params.imemWords - 1) : (s.pc + 1#16).toNat = s.params.imemWords := by
  obtain ⟨hpos, hle⟩ := imemWords_of_legal hlegal
  rw [BitVec.toNat_add, hpc, BitVec.toNat_ofNat]
  omega

/-- Settles O32: such an instruction takes the default successor, and past the last word the next fetch stops the run. -/
theorem otherInstructionsAdvancePc : Obligations.OtherInstructionsAdvancePc :=
  ⟨fun _ _ t _ ht hf hjmp hbeq hbne => exec_advances hjmp hbeq hbne t ht hf, fun _ => toNat_succ_of_last_index,
    fun _ ha hpc => engineCycle_stops_outside_imem ha hpc.ge⟩

end Sys2Proof.Machine
end

section
/-! PROOFS. The faults of an instruction (60_exceptions.md R244): a result in FAULT names a fault listed for the instruction,
and every other result completes it. Then the order of the fault conditions (R245), and that no fault stops the model (R240,
R246). -/

namespace Sys2Proof.Machine

variable {s : State}

/-! ## The listed faults (60_exceptions.md R244) -/

/-- Where the result is in FAULT, its cause is listed for the instruction. -/
def NamesListedFault (i : Instr) (r : Result) : Prop := ∀ t, r = .next t → t.engState = .fault → t.cause ∈ faultsOf i

section
variable {i : Instr}

theorem namesListedFault_retire {u : State} (hu : u.engState ≠ .fault) : NamesListedFault i u.retire := by
  intro t ht hf
  rw [(retire_eq_next u t).1 ht] at hf
  exact absurd hf hu

theorem namesListedFault_jumpTo (hs : s.engState ≠ .fault) (p : PcValue) : NamesListedFault i (s.jumpTo p) := by
  intro t ht hf
  rw [(jumpTo_eq_next s p t).1 ht] at hf
  exact absurd hf hs

theorem namesListedFault_raise {c : Cause} (hc : c ∈ faultsOf i) : NamesListedFault i (s.raise c i) := by
  intro t ht _
  rw [(raise_eq_next s c i t).1 ht]
  exact hc

theorem NamesListedFault.ite {p : Prop} [Decidable p] {r r' : Result} (h : NamesListedFault i r)
    (h' : NamesListedFault i r') : NamesListedFault i (if p then r else r') := by
  split
  · exact h
  · exact h'

end

/-- An interpolation stops at one of its two checks: where both pass, every basis it needs exists (42_lagrange.md R161). -/
theorem lagrangeInterp_error_of_check {xs ys : Poly} {c : Cause} (h : lagrangeInterp xs ys = .error c) :
    c = .lengthMismatch ∨ c = .duplicateX := by
  by_cases hlen : xs.length = ys.length
  · by_cases hxs : xs.Nodup
    · obtain ⟨r, hr, -⟩ := exists_lagrangeInterp hlen hxs
      rw [hr] at h
      exact absurd h (by simp)
    · rw [lagrangeInterp_of_not_nodup hlen hxs] at h
      exact .inr (Except.error.inj h).symm
  · rw [lagrangeInterp_of_length_ne hlen] at h
    exact .inl (Except.error.inj h).symm

section
variable (hs : s.engState ≠ .fault)
include hs

theorem execGinv_namesListedFault (d a : EReg) : NamesListedFault (.ginv d a) (execGinv d a s) := by
  unfold execGinv
  split
  · exact namesListedFault_retire hs
  · exact namesListedFault_raise (.head _)

theorem execLbasis_namesListedFault (d a : VReg) (b : EReg) :
    NamesListedFault (.lbasis d a b) (execLbasis d a b s) := by
  unfold execLbasis
  refine (namesListedFault_raise (.head _)).ite ?_
  split
  · exact namesListedFault_retire hs
  · next c hc =>
    obtain ⟨rfl, -⟩ := (lagrangeBasis_eq_error _ _ c).1 hc
    exact namesListedFault_raise (.tail _ (.head _))

theorem execLinterp_namesListedFault (d a b : VReg) : NamesListedFault (.linterp d a b) (execLinterp d a b s) := by
  unfold execLinterp
  split
  · exact namesListedFault_retire hs
  · next c hc =>
    rcases lagrangeInterp_error_of_check hc with rfl | rfl
    · exact namesListedFault_raise (.head _)
    · exact namesListedFault_raise (.tail _ (.head _))

theorem execVget_namesListedFault (d : EReg) (a : VReg) (b : EReg) :
    NamesListedFault (.vget d a b) (execVget d a b s) := by
  unfold execVget
  split
  · exact namesListedFault_retire hs
  · exact namesListedFault_raise (.head _)

/-- Outside FAULT, an instruction that ends in FAULT names one of its listed faults. -/
theorem exec_namesListedFault (i : Instr) : NamesListedFault i (exec i s) := by
  cases i with
  | gadd | gneg | gmul | peval | padd | pscale | eli | emov | einc | vmov | vlen | nop =>
    exact namesListedFault_retire hs
  | halt => exact namesListedFault_retire nofun
  | jmp => exact namesListedFault_jumpTo hs _
  | beq => exact .ite (namesListedFault_jumpTo hs _) (namesListedFault_retire hs)
  | bne => exact .ite (namesListedFault_retire hs) (namesListedFault_jumpTo hs _)
  | eld | est | vst | vclr => exact .ite (namesListedFault_retire hs) (namesListedFault_raise (.head _))
  | pmul | vset => exact .ite (namesListedFault_raise (.head _)) (namesListedFault_retire hs)
  | vld =>
    exact .ite (namesListedFault_raise (.head _))
      (.ite (namesListedFault_raise (.tail _ (.head _))) (namesListedFault_retire hs))
  | ginv d a => exact execGinv_namesListedFault hs d a
  | lbasis d a b => exact execLbasis_namesListedFault hs d a b
  | linterp d a b => exact execLinterp_namesListedFault hs d a b
  | vget d a b => exact execVget_namesListedFault hs d a b

end

theorem ne_fault_of_running (hrun : s.engState = .running) : s.engState ≠ .fault := by
  rw [hrun]
  decide

/-! ## Completion or a listed fault (30_encoding.md R111) -/

/-- An end of an instruction other than HALT leaves ENG_STATE, the fault record and `abort_pending` alone, or is the stop
action. -/
theorem Ends.sameRunRecord_or_stop {i : Instr} {t : State} (h : Ends i s t) (hi : i ≠ .halt) :
    SameRunRecord s t ∨ ∃ c, t = s.stop c s.pc (encode i) := by
  cases h with
  | halt isHalt => exact absurd isHalt hi
  | fault c _ => exact .inr ⟨c, rfl⟩
  | _ => exact .inl ⟨rfl, rfl, rfl, rfl, rfl⟩

/-- Settles O42: HALT completes, and an end of another instruction completes or is the stop action, whose cause is listed. -/
theorem instructionsRaiseOnlyTheirFaults : Obligations.InstructionsRaiseOnlyTheirFaults := by
  intro i s hrun
  by_cases hi : i = .halt
  · subst hi
    exact .inl ⟨_, rfl, rfl, rfl, rfl, rfl, rfl⟩
  · obtain ⟨t, ht, ends⟩ := exec_endsAs i s
    rcases ends.sameRunRecord_or_stop hi with ⟨hstate, hrecord⟩ | ⟨c, rfl⟩
    · exact .inl ⟨t, ht, by rw [if_neg hi, hstate, hrun], hrecord⟩
    · exact .inr ⟨c, exec_namesListedFault (ne_fault_of_running hrun) i _ ht rfl, ht⟩

/-! ## The order of the fault conditions (60_exceptions.md R245) -/

/-- With an abort pending, an engine cycle stops with ABORTED, before any fetch. -/
theorem engineCycle_stops_aborted (ha : s.abortPending = true) :
    ∃ t, engineCycle s = .next t ∧ Stopped .aborted s.pc 0x00000000#32 s t :=
  ⟨_, if_pos ha, stopped_stop s .aborted s.pc 0#32⟩

theorem Stopped.fault_and_cause {c : Cause} {p : PcValue} {w : Word} {t : State} (h : Stopped c p w s t) :
    t.engState = .fault ∧ t.cause = c := by
  obtain ⟨hfault, hcause, -⟩ := h
  exact ⟨hfault, hcause⟩

theorem mem_faultsOf_of_raises (hrun : s.engState = .running) {i : Instr} {c : Cause} (h : Raises c i s) :
    c ∈ faultsOf i := by
  obtain ⟨t, ht, hstop⟩ := h
  obtain ⟨hfault, rfl⟩ := hstop.fault_and_cause
  exact exec_namesListedFault (ne_fault_of_running hrun) i t ht hfault

/-- Settles O41: the abort comes before the fetch range and both before decoding; in each instruction the first check that
fails decides. -/
theorem firstFaultOfTheOrderIsReported : Obligations.FirstFaultOfTheOrderIsReported := by
  refine ⟨fun s ha => ?_, fun s r ha hpc _ => ?_, fun s i c hrun => mem_faultsOf_of_raises hrun,
    fun d a b s hb _ => raises_of_exec_eq_raise (exec_lbasis_of_le d a b hb),
    fun d a b s hlen _ => raises_of_exec_eq_raise (exec_linterp_of_error d a b (lagrangeInterp_of_length_ne hlen)),
    fun r len addr s hlong _ => raises_of_exec_eq_raise (exec_vld_of_too_long r addr hlong)⟩
  · obtain ⟨t, ht, hstop⟩ := engineCycle_stops_aborted ha
    exact ⟨t, ht, hstop.fault_and_cause.2⟩
  · obtain ⟨t, ht, hstop⟩ := engineCycle_stops_outside_imem ha hpc
    exact ⟨t, ht, hstop.fault_and_cause.2⟩

/-! ## Every step answers a next state (60_exceptions.md R240, R246) -/

theorem exists_exec_eq_next (i : Instr) (s : State) : ∃ t, exec i s = .next t := by
  obtain ⟨t, ht, -⟩ := exec_endsAs i s
  exact ⟨t, ht⟩

theorem exists_engineCycle_eq_next (s : State) : ∃ t, engineCycle s = .next t := by
  rcases engineCycle_cases s with ⟨_, hc⟩ | ⟨_, _, hc⟩ | ⟨_, _, _, hc⟩ | ⟨_, _, i, _, hc⟩
  · exact ⟨_, hc⟩
  · exact ⟨_, hc⟩
  · exact ⟨_, hc⟩
  · rw [hc]
    exact exists_exec_eq_next i s

theorem exists_engineTurn_eq_next (s : State) : ∃ t, engineTurn s = .next t := by
  rcases engineTurn_cases s with ⟨_, _, hturn⟩ | ⟨_, hturn⟩
  · rw [hturn]
    exact exists_engineCycle_eq_next s
  · exact ⟨s, hturn⟩

theorem exists_takeEvent_eq_next (ev : Event) (s : State) : ∃ t, takeEvent ev s = .next t := by
  cases ev with
  | engineCycle => exact exists_engineTurn_eq_next s
  | hostRead | hostWrite | hostWriteNarrow | assertReset | releaseReset => exact ⟨_, rfl⟩

theorem stepsOn_of_legal (hl : s.params.legal = true) : StepsOn s := by
  rw [StepsOn, step_of_legal s hl]
  cases s.schedule with
  | nil => exact exists_engineTurn_eq_next s
  | cons ev rest => exact exists_takeEvent_eq_next ev _

/-- Settles O43: the engine's turn and every event answer a next state, because every instruction does. -/
theorem everyStepAnswersANextState : Obligations.EveryStepAnswersANextState :=
  ⟨fun _ => stepsOn_of_legal, exists_exec_eq_next, step_of_illegal⟩

end Sys2Proof.Machine
end

section
/-! PROOFS. The engine at rest (60_exceptions.md R241, R242, R271), and `irq` as a level of the state (R260). -/

namespace Sys2Proof.Machine

variable {s : State}

/-! ## The engine's turn without an instruction (60_exceptions.md R242, R271) -/

/-- With nothing scheduled, a step is the engine's turn. -/
theorem step_of_no_event (hl : s.params.legal = true) (hs : s.schedule = []) : step s = engineTurn s := by
  rw [step_of_legal s hl, hs]

theorem engineTurn_of_rest (h : s.rst = true ∨ s.engState ≠ .running) : engineTurn s = .next s := by
  rcases engineTurn_cases s with ⟨hr, hrun, _⟩ | ⟨_, hturn⟩
  · rcases h with hrst | hn
    · exact absurd (hr.symm.trans hrst) (by decide)
    · exact absurd hrun hn
  · exact hturn

theorem engineTurn_of_running (hr : s.rst = false) (hrun : s.engState = .running) : engineTurn s = engineCycle s := by
  rcases engineTurn_cases s with ⟨_, _, hturn⟩ | ⟨hrst | hn, _⟩
  · exact hturn
  · exact absurd (hr.symm.trans hrst) (by decide)
  · exact absurd hrun hn

/-- Settles O39: the two stops before a fetch, the turn of an engine at rest, and the turn of a running one. -/
theorem engineTurnWithoutAnInstruction : Obligations.EngineTurnWithoutAnInstruction := fun _ =>
  ⟨engineCycle_stops_aborted, engineCycle_stops_outside_imem,
    fun hl hs hrest => (step_of_no_event hl hs).trans (engineTurn_of_rest hrest),
    fun hl hs hr hrun => (step_of_no_event hl hs).trans (engineTurn_of_running hr hrun)⟩

/-! ## The level of `irq` (60_exceptions.md R260) -/

theorem irq_eq_true_iff (s : State) :
    s.irq = true ↔ (s.engState = .done ∧ s.ieDone = true) ∨ (s.engState = .fault ∧ s.ieFault = true) := by
  simp [State.irq]

/-- In FAULT the interrupt level is IE_FAULT. -/
theorem irq_of_fault (h : s.engState = .fault) : s.irq = s.ieFault := by
  simp [State.irq, h]

/-- In IDLE and RUNNING there is no interrupt. -/
theorem irq_eq_false (hdone : s.engState ≠ .done) (hfault : s.engState ≠ .fault) : s.irq = false := by
  simp [State.irq, hdone, hfault]

/-- A CTRL write without START keeps ENG_STATE and stores the enables, so `irq` is that of the state with the new enables. -/
theorem writeCtrl_irq_of_no_start {data : Word} (h0 : data.getLsbD 0 = false) :
    (s.writeCtrl data).irq = (s.setEnables (data.getLsbD 2) (data.getLsbD 3)).irq := by
  rcases writeCtrl_cases s data with ⟨_, _, h⟩ | ⟨_, hstart, _⟩ | ⟨_, _, h⟩
  · rw [h]
    rfl
  · exact absurd (h0.symm.trans hstart) (by decide)
  · rw [h]

/-- Settles O57: the level by ENG_STATE, and the ENG_STATE each event leaves. -/
theorem irqIsALevelOfTheState : Obligations.IrqIsALevelOfTheState := by
  intro s
  refine ⟨irq_eq_true_iff s, fun hr => ?_, ⟨_, rfl, irq_of_done rfl⟩, fun _ _ _ => irq_of_fault rfl,
    irq_eq_false nofun nofun, irq_eq_false nofun nofun, irq_eq_false nofun nofun, fun data hr h0 => ?_⟩
  · rw [hostRead_register hr (hostTarget_status _) rfl]
    exact statusWord_irq s
  · rw [hostWrite_register hr (hostTarget_ctrl _) rfl]
    exact writeCtrl_irq_of_no_start h0

/-- Settles O40: the fields of the stop action, the level of `irq` in FAULT, and an engine in FAULT at rest. -/
theorem stopActionIsPrecise : Obligations.StopActionIsPrecise := fun s c p w =>
  ⟨stopped_stop s c p w, irq_of_fault rfl, fun hl hs =>
    (step_of_no_event (s := s.stop c p w) hl hs).trans (engineTurn_of_rest (.inr nofun))⟩

end Sys2Proof.Machine
end

section
/-! PROOFS. The transition table of ENG_STATE (60_exceptions.md R255), event by event: the engine's turn, the host's writes,
which reach ENG_STATE through CTRL and STATUS only, and `rst`. -/

namespace Sys2Proof.Machine

variable {s t : State}

/-! ## The engine's turn -/

/-- A cycle whose answer is a stop action is in FAULT with its cause. -/
theorem fault_and_cause_of_stops {r : Result} {c : Cause} {p : PcValue} {w : Word}
    (h : ∃ u, r = .next u ∧ Stopped c p w s u) (ht : r = .next t) : t.engState = .fault ∧ t.cause = c := by
  obtain ⟨u, hu, hstop⟩ := h
  obtain rfl : u = t := Host.Outcome.next.inj (hu.symm.trans ht)
  exact hstop.fault_and_cause

theorem done_of_exec_halt (h : exec .halt s = .next t) : t.engState = .done := by
  rw [(retire_eq_next _ t).1 h]
  rfl

theorem running_or_listed_fault_of_exec {i : Instr} (hrun : s.engState = .running) (hi : i ≠ .halt)
    (h : exec i s = .next t) : t.engState = .running ∨ (t.engState = .fault ∧ t.cause ∈ faultsOf i) := by
  rcases (exec_ends h).engState_of_ne_halt hi with hkept | hfault
  · exact .inl (hkept.trans hrun)
  · exact .inr ⟨hfault, exec_namesListedFault (ne_fault_of_running hrun) i t h hfault⟩

theorem cycleOutcome_of_engineCycle (hrun : s.engState = .running) (ht : engineCycle s = .next t) : CycleOutcome s t := by
  obtain ⟨-, -, stops_on_illegal⟩ := illegalWordsAreTheReservedOnes
  refine ⟨fun ha => fault_and_cause_of_stops (engineCycle_stops_aborted ha) ht,
    fun ha hpc => fault_and_cause_of_stops (engineCycle_stops_outside_imem ha hpc) ht,
    fun ha hpc => ⟨fun r hd => fault_and_cause_of_stops (stops_on_illegal s r ha hpc hd) ht, fun i hd => ?_⟩⟩
  rw [engineCycle_of_fetch ha hpc, executeWord, hd] at ht
  refine ⟨?_, fun hi => running_or_listed_fault_of_exec hrun hi ht⟩
  rintro rfl
  exact done_of_exec_halt ht

theorem turnOutcome_of_engineTurn (ht : engineTurn s = .next t) : TurnOutcome s t := by
  refine ⟨fun ⟨hr, hrun⟩ => ?_, fun hrest => ?_⟩
  · exact cycleOutcome_of_engineCycle hrun ((engineTurn_of_running hr hrun).symm.trans ht)
  · rw [Host.Outcome.next.inj ((engineTurn_of_rest hrest).symm.trans ht)]

/-! ## The host -/

theorem hostRead_engState (s : State) (off : HostOffset) : (s.hostRead off).2.engState = s.engState := by
  rcases hostRead_cases s off with ⟨_, h⟩ | ⟨_, _, _, h⟩ | ⟨_, _, h⟩
  · rw [h]
  · rw [h]
    rfl
  · rw [h]

theorem writeCtrl_engState (s : State) (data : Word) : (s.writeCtrl data).engState =
    if s.engState ≠ .running ∧ data.getLsbD 0 = true then .running else s.engState := by
  rcases writeCtrl_cases s data with ⟨hrun, _, h⟩ | ⟨hn, h0, h⟩ | ⟨_, h0, h⟩
  · rw [h, if_neg fun hstart => hstart.1 hrun]
    rfl
  · rw [h, if_pos ⟨hn, h0⟩]
    rfl
  · rw [h, if_neg fun ⟨hn, hset⟩ => absurd ((h0 hn).symm.trans hset) (by decide)]
    rfl

theorem writeStatus_engState (s : State) (data : Word) : (s.writeStatus data).engState =
    if s.engState ≠ .running ∧ data.getLsbD 31 = true then .idle else s.engState := by
  rcases writeStatus_cases s data with ⟨hn, h31, h⟩ | ⟨h31, h⟩
  · rw [h, if_pos ⟨hn, h31⟩]
    rfl
  · rw [h, if_neg fun ⟨hn, hset⟩ => absurd ((h31 hn).symm.trans hset) (by decide)]

/-- Only CTRL and STATUS reach ENG_STATE: a START makes it RUNNING, an ACK makes it IDLE. -/
theorem hostStore_engState (s : State) (data : Word) (g : HostTarget) : (s.hostStore data g).engState =
    if s.engState ≠ .running ∧ g = .ctrl ∧ data.getLsbD 0 = true then .running
    else if s.engState ≠ .running ∧ g = .status ∧ data.getLsbD 31 = true then .idle
    else s.engState := by
  cases g with
  | ctrl => simpa [State.hostStore] using writeCtrl_engState s data
  | status => simpa [State.hostStore] using writeStatus_engState s data
  | _ => simp [State.hostStore]

theorem eq_of_hostRegister_eq {w w' : Nat} (h : hostRegister w = hostRegister w') (hu : hostRegister w ≠ .unmapped) :
    w = w' := by
  have hw : w < 8 := Nat.lt_of_not_le fun hle => hu (hostRegister_unmapped hle)
  have hw' : w' < 8 := Nat.lt_of_not_le fun hle => hu (h.trans (hostRegister_unmapped hle))
  have inj : ∀ a b : Fin 8, hostRegister a = hostRegister b → a = b := by decide
  exact congrArg Fin.val (inj ⟨w, hw⟩ ⟨w', hw'⟩ h)

/-- A target is lockable, unmapped, or the fixed register of its word (20_memory.md R66). -/
theorem hostTarget_cases (p : Params) (off : HostOffset) : (hostTarget p off).isLockable = true ∨
    hostTarget p off = .unmapped ∨ hostTarget p off = hostRegister (off.toNat / 4) := by
  unfold hostTarget
  dsimp only
  split_ifs
  · exact .inl rfl
  · exact .inl rfl
  · exact .inr (.inl rfl)
  · exact .inl rfl
  · exact .inr (.inl rfl)
  · exact .inr (.inr rfl)

theorem hostTarget_eq_hostRegister {p : Params} {off : HostOffset} (hl : (hostTarget p off).isLockable = false)
    (hu : hostTarget p off ≠ .unmapped) : hostTarget p off = hostRegister (off.toNat / 4) := by
  rcases hostTarget_cases p off with h | h | h
  · exact absurd (hl.symm.trans h) (by decide)
  · exact absurd h hu
  · exact h

/-- A fixed register is the target of its own word only. -/
theorem hostTarget_eq_register_iff {p : Params} {off' : HostOffset} (hl : (hostTarget p off').isLockable = false)
    (hu : hostTarget p off' ≠ .unmapped) (off : HostOffset) :
    hostTarget p off = hostTarget p off' ↔ off.toNat / 4 = off'.toNat / 4 := by
  refine ⟨fun h => eq_of_hostRegister_eq ?_ ?_, hostTarget_eq_of_same_word p⟩
  · rw [← hostTarget_eq_hostRegister (h ▸ hl) (h ▸ hu), ← hostTarget_eq_hostRegister hl hu, h]
  · rw [← hostTarget_eq_hostRegister (h ▸ hl) (h ▸ hu), h]
    exact hu

theorem hostTarget_eq_ctrl_iff (p : Params) (off : HostOffset) : hostTarget p off = .ctrl ↔ off.toNat / 4 = 1 :=
  hostTarget_eq_register_iff (p := p) (off' := 0x0004#14) rfl nofun off

theorem hostTarget_eq_status_iff (p : Params) (off : HostOffset) : hostTarget p off = .status ↔ off.toNat / 4 = 2 :=
  hostTarget_eq_register_iff (p := p) (off' := 0x0008#14) rfl nofun off

theorem writeOutcome_hostWrite (s : State) (off : HostOffset) (data : Word) :
    WriteOutcome s (s.hostWrite off data) off data := by
  rcases hostWrite_cases s off data with ⟨hr, h⟩ | ⟨_, hrun, _, h⟩ | ⟨hr, _, h⟩ <;> rw [WriteOutcome, h]
  · simp [hr]
  · simp [hrun]
  · rw [hostStore_engState]
    simp [hr, hostTarget_eq_ctrl_iff, hostTarget_eq_status_iff]

/-! ## Every event -/

/-- Settles O46: a step is the engine's turn or its scheduled event, on a state that differs in the schedule only. -/
theorem engineStateChangesAsTabled : Obligations.EngineStateChangesAsTabled := by
  intro s t hl ht
  have scheduled : ∀ {ev rest}, s.schedule = ev :: rest → takeEvent ev (s.setSchedule rest) = .next t :=
    fun hs => (step_of_schedule hl hs).symm.trans ht
  refine ⟨fun hs => turnOutcome_of_engineTurn ((step_of_no_event hl hs).symm.trans ht),
    fun rest hs => turnOutcome_of_engineTurn (s := s.setSchedule rest) (scheduled hs), fun off rest hs => ?_,
    fun off data rest hs => ?_, fun off drives data rest hs => ?_, fun rest hs => ?_, fun rest hs => ?_⟩
  all_goals obtain rfl := Host.Outcome.next.inj (scheduled hs)
  · exact hostRead_engState (s.setSchedule rest) off
  · exact writeOutcome_hostWrite (s.setSchedule rest) off data
  · exact writeOutcome_hostWrite (s.setSchedule rest) off (narrowWord s.freeDraws drives data)
  · rfl
  · rfl

end Sys2Proof.Machine
end

section
/-! PROOFS. The order of the schedule (70_reset_and_hazards.md R290, R291). -/

namespace Sys2Proof.Machine

variable {s t : State}

/-! ## The engine never touches the schedule -/

theorem sameHostSide_stop (s : State) (c : Cause) (p : PcValue) (w : Word) : SameHostSide s (s.stop c p w) :=
  ⟨rfl, rfl, rfl, rfl, rfl, rfl, rfl, rfl⟩

/-- The three stops of a cycle and every end of an instruction leave the host's side alone. -/
theorem engineCycle_sameHostSide (h : engineCycle s = .next t) : SameHostSide s t := by
  rcases engineCycle_cases s with ⟨_, hc⟩ | ⟨_, _, hc⟩ | ⟨_, _, _, hc⟩ | ⟨_, _, i, _, hc⟩ <;> rw [hc] at h
  · exact Host.Outcome.next.inj h ▸ sameHostSide_stop s _ _ _
  · exact Host.Outcome.next.inj h ▸ sameHostSide_stop s _ _ _
  · exact Host.Outcome.next.inj h ▸ sameHostSide_stop s _ _ _
  · exact (exec_ends h).sameHostSide

theorem engineTurn_schedule (h : engineTurn s = .next t) : t.schedule = s.schedule := by
  rcases engineTurn_cases s with ⟨_, _, hturn⟩ | ⟨_, hturn⟩ <;> rw [hturn] at h
  · obtain ⟨_, _, _, _, _, hschedule, _, _⟩ := engineCycle_sameHostSide h
    exact hschedule
  · exact Host.Outcome.next.inj h ▸ rfl

/-! ## No event touches what is left of the schedule -/

theorem hostRead_schedule (s : State) (off : HostOffset) : (s.hostRead off).2.schedule = s.schedule := by
  obtain ⟨_, _, _, hschedule, _, _⟩ := hostRead_beyond s off
  exact hschedule

theorem hostWrite_schedule (s : State) (off : HostOffset) (data : Word) :
    (s.hostWrite off data).schedule = s.schedule := by
  obtain ⟨_, _, _, hschedule, _, _⟩ := hostWrite_beyond s off data
  exact hschedule

theorem takeEvent_schedule {ev : Event} (h : takeEvent ev s = .next t) : t.schedule = s.schedule := by
  cases ev with
  | engineCycle => exact engineTurn_schedule h
  | hostRead off => exact Host.Outcome.next.inj h ▸ hostRead_schedule s off
  | hostWrite off data => exact Host.Outcome.next.inj h ▸ hostWrite_schedule s off data
  | hostWriteNarrow off drives data => exact Host.Outcome.next.inj h ▸ hostWrite_schedule s off _
  | assertReset | releaseReset => exact Host.Outcome.next.inj h ▸ rfl

/-- Settles O47: the event a step takes is removed before it acts, and neither an event nor the engine's turn touches the
schedule. -/
theorem scheduleIsTakenInOrder : Obligations.ScheduleIsTakenInOrder := by
  intro s t h
  cases hl : s.params.legal with
  | false => exact absurd ((step_of_illegal s hl).symm.trans h) nofun
  | true =>
    cases hs : s.schedule with
    | nil => exact (engineTurn_schedule ((step_of_no_event hl hs).symm.trans h)).trans hs
    | cons ev rest => exact takeEvent_schedule ((step_of_schedule hl hs).symm.trans h)

end Sys2Proof.Machine
end

section
/-! PROOFS. The reset input (70_reset_and_hazards.md R280, R281): the registers it sets, and that nothing moves while it is
asserted. -/

namespace Sys2Proof.Machine

variable {s : State}

/-! ## The registers after a reset (10_state.md R50) -/

@[simp] theorem readE_resetRegisters (s : State) (i : EReg) : s.resetRegisters.readE i = 0x00#8 := by
  simp [State.readE]

@[simp] theorem readV_resetRegisters (s : State) (i : VReg) : s.resetRegisters.readV i = [] := by
  simp [State.readV]

theorem resetRegisters_powerUp (p : Params) (imem : List (Nat × Word)) (dmem : List Host.Cell) :
    (State.powerUp p imem dmem).resetRegisters = State.powerUp p imem dmem := rfl

theorem readE_powerUp (p : Params) (imem : List (Nat × Word)) (dmem : List Host.Cell) (i : EReg) :
    (State.powerUp p imem dmem).readE i = 0x00#8 := by
  rw [← resetRegisters_powerUp, readE_resetRegisters]

theorem readV_powerUp (p : Params) (imem : List (Nat × Word)) (dmem : List Host.Cell) (i : VReg) :
    (State.powerUp p imem dmem).readV i = [] := by
  rw [← resetRegisters_powerUp, readV_resetRegisters]

/-! ## While `rst` is asserted -/

theorem hostRead_of_rst (hr : s.rst = true) (off : HostOffset) : s.hostRead off = (0#32, s) :=
  if_pos hr

theorem hostWrite_of_rst (hr : s.rst = true) (off : HostOffset) (data : Word) : s.hostWrite off data = s :=
  if_pos hr

/-- An IDLE engine takes no step of its own. -/
theorem engineTurn_of_idle (h : s.engState = .idle) : engineTurn s = .next s :=
  engineTurn_of_rest (.inr (by rw [h]; decide))

/-- Settles O58: the fields of the two changes of `rst` and of power-up, and the host and the engine while it is asserted. -/
theorem resetSetsRegistersAndKeepsMemories : Obligations.ResetSetsRegistersAndKeepsMemories := by
  refine ⟨fun s t rest hl hs ht => ?asserted, fun s off data hr => ?held, fun s t rest hl hs ht => ?released,
    fun p imem dmem => ?powerUp⟩
  case asserted =>
    obtain rfl : assertReset (s.setSchedule rest) = t :=
      Host.Outcome.next.inj ((step_of_schedule hl hs).symm.trans ht)
    exact ⟨readE_resetRegisters (s.setSchedule rest), readV_resetRegisters (s.setSchedule rest), rfl, rfl, rfl,
      rfl, rfl, rfl, rfl, rfl, rfl, irq_eq_false nofun nofun, rfl, rfl, rfl, rfl⟩
  case held => exact ⟨hostRead_of_rst hr off, hostWrite_of_rst hr off data, engineTurn_of_rest (.inl hr)⟩
  case released =>
    obtain rfl : releaseReset (s.setSchedule rest) = t :=
      Host.Outcome.next.inj ((step_of_schedule hl hs).symm.trans ht)
    exact ⟨rfl, rfl, rfl, engineTurn_of_idle⟩
  case powerUp =>
    exact ⟨readE_powerUp p imem dmem, readV_powerUp p imem dmem, rfl, rfl, rfl, rfl, rfl, rfl, rfl, rfl, rfl,
      irq_eq_false nofun nofun, rfl, rfl, rfl⟩

end Sys2Proof.Machine
end

section
/-! PROOFS. The words of the decoding table (95_test_vectors.md V-EN): a listed instruction is read from its word because the
word is the one the encoder writes for it, and an illegal word is rejected for the case of 30_encoding.md R96 it falls under. -/

namespace Sys2Proof.Machine

variable {w : Word}

/-- A word written for an instruction in range decodes to that instruction. -/
theorem decode_of_encode_eq {i : Instr} (hwf : i.wellFormed = true) (henc : encode i = w) : decode w = .ok i :=
  henc ▸ decodingInvertsEncoding i hwf

/-! ## One lemma per case of 30_encoding.md R96 -/

theorem decode_error_of_reservedOp (h : ReservedOp (opField w)) : ∃ r, decode w = .error r :=
  (decode_eq_error_iff w).2 (.inl h)

theorem decode_error_of_zeroBits {m : Mnemonic} (hop : m.op = opField w) (h : w &&& zeroBits m ≠ 0#32) :
    ∃ r, decode w = .error r :=
  (decode_eq_error_iff w).2 (.inr ⟨m, hop, .inl h⟩)

theorem decode_error_of_vectorTopBits {m : Mnemonic} (hop : m.op = opField w) (h : w &&& vectorTopBits m ≠ 0#32) :
    ∃ r, decode w = .error r :=
  (decode_eq_error_iff w).2 (.inr ⟨m, hop, .inr h⟩)

/-- Settles O36: the six listed instructions are in range and encode to their words; of the illegal words, the first has no
row, the second and the last set a `Z` bit of GADD and of JMP, and the third names `v9` as the destination of PADD. -/
theorem specWordsDecodeAsListed : Obligations.SpecWordsDecodeAsListed := by
  refine ⟨?gadd, ?peval, ?lbasis, ?vld, ?vlen, ?beq, ?allZero, ?gaddLowBits, ?paddV9, ?jmpField⟩
  case gadd | peval | lbasis | vld | vlen | beq => exact decode_of_encode_eq (by decide) (by decide)
  case allZero => exact decode_error_of_reservedOp (.inl rfl)
  case gaddLowBits => exact decode_error_of_zeroBits (m := .gadd) rfl (by decide)
  case paddV9 => exact decode_error_of_vectorTopBits (m := .padd) rfl (by decide)
  case jmpField => exact decode_error_of_zeroBits (m := .jmp) rfl (by decide)

end Sys2Proof.Machine
end
